-- ==== Sys2Proof/Word.lean ====
section
/-! DEFINITION. The two word types of the block (R6): register cells and bus data are 8 bits, `pc`, `sp`, pairs and
addresses are 16 bits. `+` and `-` on them are the wrapping operations of R8. -/

namespace Sys2Proof

/-- `u8` of R8. -/
abbrev Byte := BitVec 8

/-- `u16` of R8. -/
abbrev Word := BitVec 16

end Sys2Proof
end

