-- ==== Sys2Proof/Config.lean ====
section
/-! DEFINITION. The open parameters of R7 and the fixed sizes of R6.
A model takes the parameters as arguments (R7). `exec` and `step` have the host's fixed form, so the arguments travel in
the field `State.params`; no step changes it (DESIGN CHOICE, log 1). -/

namespace Sys2Proof

/-- HC_MODE of R7: the half-carry formula of ADD and SUB (R101, R102, D4). -/
inductive HcMode where
  | preOperand
  | postResult
deriving DecidableEq, Repr

/-- CARRY_FOLD of R7: what ADC and SBC fold into the operand (R103, D5). -/
inductive CarryFold where
  | inverted
  | conventional
deriving DecidableEq, Repr

/-- SWAP_FLAGS of R7: the flags SWAP writes (R192, D7). -/
inductive SwapFlags where
  | conventional
  | preserve
deriving DecidableEq, Repr

/-- The three open parameters of R7. -/
structure Params where
  hcMode    : HcMode
  carryFold : CarryFold
  swapFlags : SwapFlags
deriving DecidableEq, Repr

/-- The defaults of R7 (D4, D5, D7). -/
def standardParams : Params :=
  ⟨.preOperand, .inverted, .conventional⟩

/-- R6: the boot overlay image is exactly 256 bytes. -/
def bootImageSize : Nat := 256

/-- R6: the minimum cartridge image size, 32 KiB. -/
def minCartSize : Nat := 32768

/-- R6: the size of one ROM bank, 16 KiB. -/
def romBankSize : Nat := 16384

end Sys2Proof
end

