-- ==== Sys2Proof/Syntax.lean ====
section
/-! DEFINITION. The instructions: one constructor per row of spec/opcode_table.json, named after the row's assembler
spelling (R95) with its operation in lower case: `ld_B_indHL` is `LD B,(HL)`. As R35 says, an instruction carries no
address and no operand byte; `d8`, `d16` and `a16` are read from memory when it executes (R86, R87, R162). -/

namespace Sys2Proof

/-- A decoded instruction (R35), one constructor per mapped encoding (R91, R93). -/
inductive Instr where
  -- engine control (R200, R201)
  | nop | halt
  -- loads (R130 to R136)
  | ld_BC_d16 | ld_B_d8 | ld_C_d8 | ld_DE_d16 | ld_D_d8 | ld_E_d8 | ld_HL_d16 | ld_H_d8
  | ld_L_d8 | ld_SP_d16 | ld_indHL_d8 | ld_A_d8 | ld_B_B | ld_B_C | ld_B_D | ld_B_E
  | ld_B_H | ld_B_L | ld_B_indHL | ld_B_A | ld_C_B | ld_C_C | ld_C_D | ld_C_E
  | ld_C_H | ld_C_L | ld_C_indHL | ld_C_A | ld_D_B | ld_D_C | ld_D_D | ld_D_E
  | ld_D_H | ld_D_L | ld_D_indHL | ld_D_A | ld_E_B | ld_E_C | ld_E_D | ld_E_E
  | ld_E_H | ld_E_L | ld_E_indHL | ld_E_A | ld_H_B | ld_H_C | ld_H_D | ld_H_E
  | ld_H_H | ld_H_L | ld_H_indHL | ld_H_A | ld_L_B | ld_L_C | ld_L_D | ld_L_E
  | ld_L_H | ld_L_L | ld_L_indHL | ld_L_A | ld_indHL_B | ld_indHL_C | ld_indHL_D | ld_indHL_E
  | ld_indHL_H | ld_indHL_L | ld_indHL_A | ld_A_B | ld_A_C | ld_A_D | ld_A_E | ld_A_H
  | ld_A_L | ld_A_indHL | ld_A_A
  -- arithmetic (R104 to R115)
  | add_A_B | add_A_C | add_A_D | add_A_E | add_A_H | add_A_L | add_A_indHL | add_A_A
  | adc_A_B | adc_A_C | adc_A_D | adc_A_E | adc_A_H | adc_A_L | adc_A_indHL | adc_A_A
  | sub_A_B | sub_A_C | sub_A_D | sub_A_E | sub_A_H | sub_A_L | sub_A_indHL | sub_A_A
  | sbc_A_B | sbc_A_C | sbc_A_D | sbc_A_E | sbc_A_H | sbc_A_L | sbc_A_indHL | sbc_A_A
  | add_A_d8 | adc_A_d8 | sub_A_d8 | sbc_A_d8
  -- stack, call and return (R156 to R165)
  | ret_NZ | pop_BC | call_NZ_a16 | push_BC | ret_Z | ret | call_Z_a16 | call_a16
  | ret_NC | pop_DE | call_NC_a16 | push_DE | ret_C | call_C_a16 | pop_HL | push_HL
  | pop_AF | push_AF
  -- jumps (R180, R181)
  | jp_NZ_a16 | jp_a16 | jp_Z_a16 | jp_NC_a16 | jp_C_a16
  -- the prefixed page (R193, R194)
  | swap_B | swap_C | swap_D | swap_E | swap_H | swap_L | swap_indHL | swap_A
deriving DecidableEq, Repr

end Sys2Proof
end

