-- ==== Sys2Proof/WellFormed.lean ====
section
/-! DEFINITION. The operand selectors and the decoded form of R35, the form of each instruction, and which forms are
well formed (R94, R204). F is no 8-bit operand (R82), AF has no `LD rr,d16` and SP no PUSH or POP (R83): `Reg8`,
`Dst16` and `Pair` have no such name, so these terms cannot be written down. -/

namespace Sys2Proof

/-- `Reg8` of R35: the register cells an 8-bit operand can name (R82). -/
inductive Reg8 where
  | A | B | C | D | E | H | L
deriving DecidableEq, Repr

/-- `Src8` of R35: a register, the byte at `pair(HL)`, or the immediate byte at `pc+1`. -/
inductive Src8 where
  | reg (r : Reg8)
  | indHL
  | imm8
deriving DecidableEq, Repr

/-- `Dst8` of R35: a register or the byte at `pair(HL)`. -/
inductive Dst8 where
  | reg (r : Reg8)
  | indHL
deriving DecidableEq, Repr

/-- `Pair` of R35: the pairs of PUSH and POP, and the views of R23. -/
inductive Pair where
  | BC | DE | HL | AF
deriving DecidableEq, Repr

/-- `Dst16` of R35: the destinations of a 16-bit immediate load. -/
inductive Dst16 where
  | BC | DE | HL | SP
deriving DecidableEq, Repr

/-- The five condition codes of R31. -/
inductive Cond where
  | always | Z | NZ | C | NC
deriving DecidableEq, Repr

/-- The four operations of the arithmetic family (R85). -/
inductive AluOp where
  | add | adc | sub | sbc
deriving DecidableEq, Repr

/-- `Page` of R14: the decoder table a byte was looked up in. -/
inductive Page where
  | plain
  | prefixed
deriving DecidableEq, Repr

/-- The decoded instruction of R35: one variant per family, carrying its operand selectors. -/
inductive Form where
  | alu (op : AluOp) (src : Src8)
  | ld8 (dst : Dst8) (src : Src8)
  | ld16 (dst : Dst16)
  | push (p : Pair)
  | pop (p : Pair)
  | jp (cc : Cond)
  | call (cc : Cond)
  | ret (cc : Cond)
  | swap (dst : Dst8)
  | halt
  | nop
deriving DecidableEq, Repr

/-- R94, R204, I10: the one form no encoding produces is the load from `(HL)` to `(HL)`. -/
def formWellFormed : Form → Bool
  | .ld8 .indHL .indHL => false
  | _ => true

/-- How many operand bytes follow the operation byte (R80, R86). -/
def formOperandBytes : Form → Nat
  | .alu _ .imm8 => 1
  | .ld8 _ .imm8 => 1
  | .ld16 _ => 2
  | .jp _ => 2
  | .call _ => 2
  | _ => 0

/-- The length of an instruction in bytes, a function of its variant (R80, R90). -/
def formLength : Form → Nat
  | .swap _ => 2
  | f => 1 + formOperandBytes f

/-- The variant of R35 each table row decodes to (R91, R93). -/
def Instr.form : Instr → Form
  -- engine control (R200, R201)
  | .nop => .nop
  | .halt => .halt
  -- loads (R130 to R136)
  | .ld_BC_d16 => .ld16 .BC
  | .ld_B_d8 => .ld8 (.reg .B) .imm8
  | .ld_C_d8 => .ld8 (.reg .C) .imm8
  | .ld_DE_d16 => .ld16 .DE
  | .ld_D_d8 => .ld8 (.reg .D) .imm8
  | .ld_E_d8 => .ld8 (.reg .E) .imm8
  | .ld_HL_d16 => .ld16 .HL
  | .ld_H_d8 => .ld8 (.reg .H) .imm8
  | .ld_L_d8 => .ld8 (.reg .L) .imm8
  | .ld_SP_d16 => .ld16 .SP
  | .ld_indHL_d8 => .ld8 .indHL .imm8
  | .ld_A_d8 => .ld8 (.reg .A) .imm8
  | .ld_B_B => .ld8 (.reg .B) (.reg .B)
  | .ld_B_C => .ld8 (.reg .B) (.reg .C)
  | .ld_B_D => .ld8 (.reg .B) (.reg .D)
  | .ld_B_E => .ld8 (.reg .B) (.reg .E)
  | .ld_B_H => .ld8 (.reg .B) (.reg .H)
  | .ld_B_L => .ld8 (.reg .B) (.reg .L)
  | .ld_B_indHL => .ld8 (.reg .B) .indHL
  | .ld_B_A => .ld8 (.reg .B) (.reg .A)
  | .ld_C_B => .ld8 (.reg .C) (.reg .B)
  | .ld_C_C => .ld8 (.reg .C) (.reg .C)
  | .ld_C_D => .ld8 (.reg .C) (.reg .D)
  | .ld_C_E => .ld8 (.reg .C) (.reg .E)
  | .ld_C_H => .ld8 (.reg .C) (.reg .H)
  | .ld_C_L => .ld8 (.reg .C) (.reg .L)
  | .ld_C_indHL => .ld8 (.reg .C) .indHL
  | .ld_C_A => .ld8 (.reg .C) (.reg .A)
  | .ld_D_B => .ld8 (.reg .D) (.reg .B)
  | .ld_D_C => .ld8 (.reg .D) (.reg .C)
  | .ld_D_D => .ld8 (.reg .D) (.reg .D)
  | .ld_D_E => .ld8 (.reg .D) (.reg .E)
  | .ld_D_H => .ld8 (.reg .D) (.reg .H)
  | .ld_D_L => .ld8 (.reg .D) (.reg .L)
  | .ld_D_indHL => .ld8 (.reg .D) .indHL
  | .ld_D_A => .ld8 (.reg .D) (.reg .A)
  | .ld_E_B => .ld8 (.reg .E) (.reg .B)
  | .ld_E_C => .ld8 (.reg .E) (.reg .C)
  | .ld_E_D => .ld8 (.reg .E) (.reg .D)
  | .ld_E_E => .ld8 (.reg .E) (.reg .E)
  | .ld_E_H => .ld8 (.reg .E) (.reg .H)
  | .ld_E_L => .ld8 (.reg .E) (.reg .L)
  | .ld_E_indHL => .ld8 (.reg .E) .indHL
  | .ld_E_A => .ld8 (.reg .E) (.reg .A)
  | .ld_H_B => .ld8 (.reg .H) (.reg .B)
  | .ld_H_C => .ld8 (.reg .H) (.reg .C)
  | .ld_H_D => .ld8 (.reg .H) (.reg .D)
  | .ld_H_E => .ld8 (.reg .H) (.reg .E)
  | .ld_H_H => .ld8 (.reg .H) (.reg .H)
  | .ld_H_L => .ld8 (.reg .H) (.reg .L)
  | .ld_H_indHL => .ld8 (.reg .H) .indHL
  | .ld_H_A => .ld8 (.reg .H) (.reg .A)
  | .ld_L_B => .ld8 (.reg .L) (.reg .B)
  | .ld_L_C => .ld8 (.reg .L) (.reg .C)
  | .ld_L_D => .ld8 (.reg .L) (.reg .D)
  | .ld_L_E => .ld8 (.reg .L) (.reg .E)
  | .ld_L_H => .ld8 (.reg .L) (.reg .H)
  | .ld_L_L => .ld8 (.reg .L) (.reg .L)
  | .ld_L_indHL => .ld8 (.reg .L) .indHL
  | .ld_L_A => .ld8 (.reg .L) (.reg .A)
  | .ld_indHL_B => .ld8 .indHL (.reg .B)
  | .ld_indHL_C => .ld8 .indHL (.reg .C)
  | .ld_indHL_D => .ld8 .indHL (.reg .D)
  | .ld_indHL_E => .ld8 .indHL (.reg .E)
  | .ld_indHL_H => .ld8 .indHL (.reg .H)
  | .ld_indHL_L => .ld8 .indHL (.reg .L)
  | .ld_indHL_A => .ld8 .indHL (.reg .A)
  | .ld_A_B => .ld8 (.reg .A) (.reg .B)
  | .ld_A_C => .ld8 (.reg .A) (.reg .C)
  | .ld_A_D => .ld8 (.reg .A) (.reg .D)
  | .ld_A_E => .ld8 (.reg .A) (.reg .E)
  | .ld_A_H => .ld8 (.reg .A) (.reg .H)
  | .ld_A_L => .ld8 (.reg .A) (.reg .L)
  | .ld_A_indHL => .ld8 (.reg .A) .indHL
  | .ld_A_A => .ld8 (.reg .A) (.reg .A)
  -- arithmetic (R104 to R115)
  | .add_A_B => .alu .add (.reg .B)
  | .add_A_C => .alu .add (.reg .C)
  | .add_A_D => .alu .add (.reg .D)
  | .add_A_E => .alu .add (.reg .E)
  | .add_A_H => .alu .add (.reg .H)
  | .add_A_L => .alu .add (.reg .L)
  | .add_A_indHL => .alu .add .indHL
  | .add_A_A => .alu .add (.reg .A)
  | .adc_A_B => .alu .adc (.reg .B)
  | .adc_A_C => .alu .adc (.reg .C)
  | .adc_A_D => .alu .adc (.reg .D)
  | .adc_A_E => .alu .adc (.reg .E)
  | .adc_A_H => .alu .adc (.reg .H)
  | .adc_A_L => .alu .adc (.reg .L)
  | .adc_A_indHL => .alu .adc .indHL
  | .adc_A_A => .alu .adc (.reg .A)
  | .sub_A_B => .alu .sub (.reg .B)
  | .sub_A_C => .alu .sub (.reg .C)
  | .sub_A_D => .alu .sub (.reg .D)
  | .sub_A_E => .alu .sub (.reg .E)
  | .sub_A_H => .alu .sub (.reg .H)
  | .sub_A_L => .alu .sub (.reg .L)
  | .sub_A_indHL => .alu .sub .indHL
  | .sub_A_A => .alu .sub (.reg .A)
  | .sbc_A_B => .alu .sbc (.reg .B)
  | .sbc_A_C => .alu .sbc (.reg .C)
  | .sbc_A_D => .alu .sbc (.reg .D)
  | .sbc_A_E => .alu .sbc (.reg .E)
  | .sbc_A_H => .alu .sbc (.reg .H)
  | .sbc_A_L => .alu .sbc (.reg .L)
  | .sbc_A_indHL => .alu .sbc .indHL
  | .sbc_A_A => .alu .sbc (.reg .A)
  | .add_A_d8 => .alu .add .imm8
  | .adc_A_d8 => .alu .adc .imm8
  | .sub_A_d8 => .alu .sub .imm8
  | .sbc_A_d8 => .alu .sbc .imm8
  -- stack, call and return (R156 to R165)
  | .ret_NZ => .ret .NZ
  | .pop_BC => .pop .BC
  | .call_NZ_a16 => .call .NZ
  | .push_BC => .push .BC
  | .ret_Z => .ret .Z
  | .ret => .ret .always
  | .call_Z_a16 => .call .Z
  | .call_a16 => .call .always
  | .ret_NC => .ret .NC
  | .pop_DE => .pop .DE
  | .call_NC_a16 => .call .NC
  | .push_DE => .push .DE
  | .ret_C => .ret .C
  | .call_C_a16 => .call .C
  | .pop_HL => .pop .HL
  | .push_HL => .push .HL
  | .pop_AF => .pop .AF
  | .push_AF => .push .AF
  -- jumps (R180, R181)
  | .jp_NZ_a16 => .jp .NZ
  | .jp_a16 => .jp .always
  | .jp_Z_a16 => .jp .Z
  | .jp_NC_a16 => .jp .NC
  | .jp_C_a16 => .jp .C
  -- the prefixed page (R193, R194)
  | .swap_B => .swap (.reg .B)
  | .swap_C => .swap (.reg .C)
  | .swap_D => .swap (.reg .D)
  | .swap_E => .swap (.reg .E)
  | .swap_H => .swap (.reg .H)
  | .swap_L => .swap (.reg .L)
  | .swap_indHL => .swap .indHL
  | .swap_A => .swap (.reg .A)

/-- An instruction is well formed when its form is (R204). -/
def Instr.wellFormed (i : Instr) : Bool :=
  formWellFormed i.form

/-- R90. -/
def Instr.length (i : Instr) : Nat :=
  formLength i.form

/-- The operand bytes an instruction's encoding has after its operation byte (R80). -/
def Instr.operandBytes (i : Instr) : Nat :=
  formOperandBytes i.form

end Sys2Proof
end

