-- ==== Sys2Proof/Machine/State.lean ====
section
/-! DEFINITION. The machine's state as plain data (R39), the errors of R220, and the state after reset (R40). -/

namespace Sys2Proof.Machine

/-- The seven backing arrays of the bus (R39, R51). -/
inductive Backing where
  | boot | rom0 | romN | vram | eram | wram | hram
deriving DecidableEq, Repr

/-- The contents of the backing arrays (R39). Each is a list of (offset, byte), offsets strictly rising; an offset that
is not listed holds the byte every cell holds at power-on (R40), and no listed byte equals it. -/
structure Memory where
  boot : List Host.Cell
  rom0 : List Host.Cell
  romN : List Host.Cell
  vram : List Host.Cell
  eram : List Host.Cell
  wram : List Host.Cell
  hram : List Host.Cell
deriving DecidableEq, Repr

/-- The flag register: four booleans and no storage for bits 3..0 (R27). -/
structure Flags where
  z : Bool
  n : Bool
  h : Bool
  c : Bool
deriving DecidableEq, Repr

/-- The complete architectural state (R39), and the parameters of R7 (log 1). -/
structure State where
  a : Byte
  b : Byte
  c : Byte
  d : Byte
  e : Byte
  h : Byte
  l : Byte
  flags : Flags
  pc : Word
  sp : Word
  halted : Bool
  bootActive : Bool
  mem : Memory
  params : Params
deriving DecidableEq, Repr

/-- The four error kinds of R220. Each is an outcome the spec itself gives, so each is safe: the machine stops where the
spec says it stops. -/
inductive Fault where
  /-- R221: `decode` found no mapping for the byte in that page's table. Raised by the fetch (R202). Safe. -/
  | unimplementedOpcode (byte : Byte) (page : Page)
  /-- R224, D20: raised by no mapped encoding; kept because it is one of the four kinds. Safe. -/
  | unimplementedInstructionForm
  /-- R223: the address of the first access outside every region, from any fetch, operand or stack access. Safe. -/
  | addressOutOfRange (address : Word)
  /-- R225: an image of the wrong size; raised by construction only, never by a step. Safe. -/
  | configurationError
deriving DecidableEq, Repr

/-- A refusal by the model. No instruction is refused. -/
inductive Refusal where
  /-- An instruction without a meaning, raised by an arm of `exec`. No arm raises it. Safe. -/
  | notModelled (mnemonic : String)
deriving DecidableEq, Repr

/-- The outcome of a step (R11): `next` is `Ok`, `fault` is `Err` (log 5). -/
abbrev Outcome := Host.Outcome State Fault Refusal

/-- The arrays with every cell zero (R40). -/
def emptyMemory : Memory :=
  ⟨[], [], [], [], [], [], []⟩

/-- The state after construction (R40) with no boot image and a cartridge of zeros, the baseline of 95_test_vectors.md
(log 2). -/
def State.reset : State where
  a := 0x00#8
  b := 0x00#8
  c := 0x00#8
  d := 0x00#8
  e := 0x00#8
  h := 0x00#8
  l := 0x00#8
  flags := ⟨false, false, false, false⟩
  pc := 0x0000#16
  sp := 0x0000#16
  halted := false
  bootActive := false
  mem := emptyMemory
  params := standardParams

end Sys2Proof.Machine
end

