-- ==== Sys2Proof/Machine/Ops.lean ====
section
/-! DEFINITION. The named operations over registers, flags, memory and the stack, and `commit`, the one way a meaning ends
in an outcome. The spec has no trap entry and no trap return (R229, R230): an error is returned to the driver and nothing
of the step is committed (R10, R226), which is all that raising one does. -/

namespace Sys2Proof.Machine

/-! ### Bytes and words -/

/-- `{hi, lo}` of R8. -/
def joinBytes (hi lo : Byte) : Word :=
  BitVec.ofNat 16 (hi.toNat * 256 + lo.toNat)

/-- `v[15:8]`. -/
def highByte (v : Word) : Byte :=
  BitVec.ofNat 8 (v.toNat / 256)

/-- `v[7:0]`. -/
def lowByte (v : Word) : Byte :=
  BitVec.ofNat 8 v.toNat

/-! ### Whole-field updates -/

def State.setPc (s : State) (v : Word) : State := { s with pc := v }

def State.setSp (s : State) (v : Word) : State := { s with sp := v }

def State.setFlags (s : State) (f : Flags) : State := { s with flags := f }

def State.setMem (s : State) (m : Memory) : State := { s with mem := m }

def State.setHalted (s : State) (v : Bool) : State := { s with halted := v }

def State.setBootActive (s : State) (v : Bool) : State := { s with bootActive := v }

/-! ### Registers, the flag codec, pairs and conditions -/

/-- `x[r]` (R9, R21). -/
def readReg (s : State) : Reg8 → Byte
  | .A => s.a
  | .B => s.b
  | .C => s.c
  | .D => s.d
  | .E => s.e
  | .H => s.h
  | .L => s.l

/-- `x[r] <- v` (R9, R21, R22). -/
def State.setReg (s : State) (r : Reg8) (v : Byte) : State :=
  match r with
  | .A => { s with a := v }
  | .B => { s with b := v }
  | .C => { s with c := v }
  | .D => { s with d := v }
  | .E => { s with e := v }
  | .H => { s with h := v }
  | .L => { s with l := v }

/-- `Fenc()` of R28: Z, N, H, C at bits 7, 6, 5, 4, and zeros below. -/
def encodeFlags (f : Flags) : Byte :=
  BitVec.ofNat 8 (f.z.toNat * 128 + f.n.toNat * 64 + f.h.toNat * 32 + f.c.toNat * 16)

/-- `Fdec(b)` of R28; `b[3:0]` is ignored. -/
def decodeFlags (b : Byte) : Flags :=
  ⟨b.getLsbD 7, b.getLsbD 6, b.getLsbD 5, b.getLsbD 4⟩

/-- `pair(P)` of R23. -/
def readPair (s : State) : Pair → Word
  | .AF => joinBytes s.a (encodeFlags s.flags)
  | .BC => joinBytes s.b s.c
  | .DE => joinBytes s.d s.e
  | .HL => joinBytes s.h s.l

/-- `pair(P) <- v` of R24. -/
def State.setPair (s : State) (p : Pair) (v : Word) : State :=
  match p with
  | .AF => { s with a := highByte v, flags := decodeFlags (lowByte v) }
  | .BC => { s with b := highByte v, c := lowByte v }
  | .DE => { s with d := highByte v, e := lowByte v }
  | .HL => { s with h := highByte v, l := lowByte v }

/-- The destination of a 16-bit immediate load (R135, R136). -/
def State.setDst16 (s : State) (dst : Dst16) (v : Word) : State :=
  match dst with
  | .BC => s.setPair .BC v
  | .DE => s.setPair .DE v
  | .HL => s.setPair .HL v
  | .SP => s.setSp v

/-- `cond(cc)` of R31. -/
def holds (f : Flags) : Cond → Bool
  | .always => true
  | .Z => f.z
  | .NZ => !f.z
  | .C => f.c
  | .NC => !f.c

/-! ### Backing arrays -/

/-- What an offset that is not listed holds: every cell is zero at power-on (R40). -/
def unlistedByte : Byte := 0x00#8

/-- The size of each array (R51). -/
def backingSize : Backing → Nat
  | .boot => 256
  | .rom0 => 16384
  | .romN => 16384
  | .vram => 8192
  | .eram => 8192
  | .wram => 8192
  | .hram => 127

/-- `arr[k]`. -/
def getCell : List Host.Cell → Nat → Byte
  | [], _ => unlistedByte
  | (j, v) :: rest, k => if j = k then v else getCell rest k

/-- `arr[k] <- v`, keeping the canonical form. -/
def setCell : List Host.Cell → Nat → Byte → List Host.Cell
  | [], k, v => if v = unlistedByte then [] else [(k, v)]
  | (j, w) :: rest, k, v =>
    if j < k then (j, w) :: setCell rest k v
    else if j = k then (if v = unlistedByte then rest else (k, v) :: rest)
    else (if v = unlistedByte then (j, w) :: rest else (k, v) :: (j, w) :: rest)

/-- The canonical form of one array: offsets strictly rise from `lo` up and stay below `size`, and no entry equals the
unlisted byte. -/
def canonicalFrom (size : Nat) : Nat → List Host.Cell → Bool
  | _, [] => true
  | lo, (k, v) :: rest => decide (lo ≤ k) && decide (k < size) && (v != unlistedByte) && canonicalFrom size (k + 1) rest

/-- The cells of one array. -/
def Memory.cells (m : Memory) : Backing → List Host.Cell
  | .boot => m.boot
  | .rom0 => m.rom0
  | .romN => m.romN
  | .vram => m.vram
  | .eram => m.eram
  | .wram => m.wram
  | .hram => m.hram

def Memory.withCells (m : Memory) (arr : Backing) (cs : List Host.Cell) : Memory :=
  match arr with
  | .boot => { m with boot := cs }
  | .rom0 => { m with rom0 := cs }
  | .romN => { m with romN := cs }
  | .vram => { m with vram := cs }
  | .eram => { m with eram := cs }
  | .wram => { m with wram := cs }
  | .hram => { m with hram := cs }

/-- The byte at an offset of a backing array. -/
def Memory.read (m : Memory) (arr : Backing) (off : Nat) : Byte :=
  getCell (m.cells arr) off

/-- The byte at an offset of a backing array replaced. -/
def Memory.write (m : Memory) (arr : Backing) (off : Nat) (v : Byte) : Memory :=
  m.withCells arr (setCell (m.cells arr) off v)

/-- One array of a memory is canonical. -/
def Memory.wfAt (m : Memory) (arr : Backing) : Bool :=
  canonicalFrom (backingSize arr) 0 (m.cells arr)

/-- The canonical form of the memory: every array has it. -/
def Memory.wf (m : Memory) : Bool :=
  m.wfAt .boot && m.wfAt .rom0 && m.wfAt .romN && m.wfAt .vram && m.wfAt .eram && m.wfAt .wram && m.wfAt .hram

/-! ### The bus -/

/-- The routing function of R53: boot overlay first (R52), echo RAM onto working RAM (R54), `none` for an unmapped
address (R55). -/
def route (addr : Word) (bootActive : Bool) : Option (Backing × Nat) :=
  let a := addr.toNat
  if bootActive && decide (a ≤ 0x00FF) then some (.boot, a)
  else if a ≤ 0x3FFF then some (.rom0, a)
  else if a ≤ 0x7FFF then some (.romN, a - 0x4000)
  else if a ≤ 0x9FFF then some (.vram, a - 0x8000)
  else if a ≤ 0xBFFF then some (.eram, a - 0xA000)
  else if a ≤ 0xDFFF then some (.wram, a - 0xC000)
  else if a ≤ 0xFDFF then some (.wram, a - 0xE000)
  else if 0xFF80 ≤ a ∧ a ≤ 0xFFFE then some (.hram, a - 0xFF80)
  else none

/-- `MemRead(addr, 1)` of R58. -/
def memRead (s : State) (addr : Word) : Except Fault Byte :=
  match route addr s.bootActive with
  | none => .error (.addressOutOfRange addr)
  | some (arr, off) => .ok (s.mem.read arr off)

/-- `MemWrite(addr, 1, v)` of R59: routed as a read is, in every region. -/
def memWrite (s : State) (addr : Word) (v : Byte) : Except Fault State :=
  match route addr s.bootActive with
  | none => .error (.addressOutOfRange addr)
  | some (arr, off) => .ok (s.setMem (s.mem.write arr off v))

/-- `MemRead16(addr)` of R62: the low byte is read first. -/
def memRead16 (s : State) (addr : Word) : Except Fault Word := do
  let lo ← memRead s addr
  let hi ← memRead s (addr + 1)
  pure (joinBytes hi lo)

/-- `push(v)` of R150: the high byte at `sp - 1`, then the low byte at `sp - 2`. -/
def push (s : State) (v : Word) : Except Fault State := do
  let s1 ← memWrite s (s.sp - 1) (highByte v)
  let s2 ← memWrite s1 (s.sp - 2) (lowByte v)
  pure (s2.setSp (s.sp - 2))

/-- `pop()` of R151: the low byte at `sp`, then the high byte at `sp + 1`. -/
def pop (s : State) : Except Fault (Word × State) := do
  let lo ← memRead s s.sp
  let hi ← memRead s (s.sp + 1)
  pure (joinBytes hi lo, s.setSp (s.sp + 2))

/-- The end of a step (D13): every access succeeded and all writes take effect, or the first error is returned and none
does (R11, R226, R227). -/
def commit : Except Fault State → Outcome
  | .ok t => .next t
  | .error f => .fault f

end Sys2Proof.Machine
end

