-- ==== Sys2Proof/Machine/Flags.lean ====
section
/-! DEFINITION. The arithmetic cores (R101 to R103), the nibble swap (R191) and the flags of SWAP (R192). -/

namespace Sys2Proof.Machine

/-- `v[3:0]`. -/
def lowNibble (v : Byte) : Nat :=
  v.toNat % 16

/-- `v[7:4]`. -/
def highNibble (v : Byte) : Nat :=
  v.toNat / 16

/-- `AddCore` of R101; the two half-carry formulas are the spec's decision D4 (log 11 for `post_result`). -/
def addCore (mode : HcMode) (a v : Byte) : Byte × Flags :=
  let sum := a.toNat + v.toNat
  let res := BitVec.ofNat 8 (sum % 256)
  let h :=
    match mode with
    | .preOperand => decide (lowNibble a + lowNibble v > 0xF)
    | .postResult => decide (lowNibble res + lowNibble v > 0xF)
  (res, ⟨decide (res = 0x00#8), false, h, decide (sum > 0xFF)⟩)

/-- `SubCore` of R102, which marks N = 1 and C = borrow as the spec's own inference (N6); the half carry as in
`addCore`. -/
def subCore (mode : HcMode) (a v : Byte) : Byte × Flags :=
  let res := BitVec.ofNat 8 ((a.toNat + 256 - v.toNat) % 256)
  let h :=
    match mode with
    | .preOperand => decide (lowNibble a < lowNibble v)
    | .postResult => decide (lowNibble res < lowNibble v)
  (res, ⟨decide (res = 0x00#8), true, h, decide (a.toNat < v.toNat)⟩)

/-- `fold` of R103: the inverted fold adds one when the carry flag is clear. -/
def carryFold (mode : CarryFold) (c : Bool) : Nat :=
  match mode with
  | .inverted => if c then 0 else 1
  | .conventional => if c then 1 else 0

/-- `Fold(v)` of R103: eight bits, so 0xFF folded with 1 is 0x00 (D6). -/
def foldOperand (mode : CarryFold) (c : Bool) (v : Byte) : Byte :=
  BitVec.ofNat 8 ((v.toNat + carryFold mode c) % 256)

/-- `Swap(v)` of R191. -/
def swapNibbles (v : Byte) : Byte :=
  BitVec.ofNat 8 (lowNibble v * 16 + highNibble v)

/-- The flags after SWAP (R192). -/
def flagsAfterSwap (mode : SwapFlags) (old : Flags) (res : Byte) : Flags :=
  match mode with
  | .conventional => ⟨decide (res = 0x00#8), false, false, false⟩
  | .preserve => old

end Sys2Proof.Machine
end

