-- ==== Sys2Proof/Machine/Operands.lean ====
section
/-! DEFINITION. Operand resolution (R86, R87). -/

namespace Sys2Proof.Machine

/-- `read8(s)` of R87. -/
def read8 (s : State) : Src8 → Except Fault Byte
  | .reg r => .ok (readReg s r)
  | .indHL => memRead s (readPair s .HL)
  | .imm8 => memRead s (s.pc + 1)

/-- `write8(d, v)` of R87. -/
def write8 (s : State) (d : Dst8) (v : Byte) : Except Fault State :=
  match d with
  | .reg r => .ok (s.setReg r v)
  | .indHL => memWrite s (readPair s .HL) v

/-- `d16` and `a16`: the little-endian word at `pc+1`, `pc+2` (R62, R86). -/
def imm16 (s : State) : Except Fault Word :=
  memRead16 s (s.pc + 1)

/-- How far an instruction with this source advances `pc`: 2 for an immediate byte, else 1 (R100, R129). -/
def srcAdvance : Src8 → Word
  | .imm8 => 2
  | _ => 1

end Sys2Proof.Machine
end

