-- ==== Sys2Proof/Machine/Arithmetic.lean ====
section
/-! DEFINITION. The arithmetic family (R100 to R115): ADD, ADC, SUB and SBC with a register, the byte at `pair(HL)` or an
immediate byte. -/

namespace Sys2Proof.Machine

/-- The structure every arithmetic instruction shares (R100). -/
def arithmetic (core : Byte → Byte → Byte × Flags) (src : Src8) (s : State) : Outcome :=
  commit do
    let v ← read8 s src
    let (res, flags) := core s.a v
    pure (((s.setReg .A res).setFlags flags).setPc (s.pc + srcAdvance src))

/-- ADD A (R104 to R106). -/
def addA (src : Src8) (s : State) : Outcome :=
  arithmetic (addCore s.params.hcMode) src s

/-- ADC A (R107 to R109): the carry is folded into the operand first (R103). -/
def adcA (src : Src8) (s : State) : Outcome :=
  arithmetic (fun a v => addCore s.params.hcMode a (foldOperand s.params.carryFold s.flags.c v)) src s

/-- SUB A (R110 to R112). -/
def subA (src : Src8) (s : State) : Outcome :=
  arithmetic (subCore s.params.hcMode) src s

/-- SBC A (R113 to R115). -/
def sbcA (src : Src8) (s : State) : Outcome :=
  arithmetic (fun a v => subCore s.params.hcMode a (foldOperand s.params.carryFold s.flags.c v)) src s

/-- ADD A,B (R104). -/
def execAdd_A_B (s : State) : Outcome := addA (.reg .B) s

/-- ADD A,C (R104). -/
def execAdd_A_C (s : State) : Outcome := addA (.reg .C) s

/-- ADD A,D (R104). -/
def execAdd_A_D (s : State) : Outcome := addA (.reg .D) s

/-- ADD A,E (R104). -/
def execAdd_A_E (s : State) : Outcome := addA (.reg .E) s

/-- ADD A,H (R104). -/
def execAdd_A_H (s : State) : Outcome := addA (.reg .H) s

/-- ADD A,L (R104). -/
def execAdd_A_L (s : State) : Outcome := addA (.reg .L) s

/-- ADD A,(HL) (R105). -/
def execAdd_A_indHL (s : State) : Outcome := addA .indHL s

/-- ADD A,A (R104). -/
def execAdd_A_A (s : State) : Outcome := addA (.reg .A) s

/-- ADC A,B (R107). -/
def execAdc_A_B (s : State) : Outcome := adcA (.reg .B) s

/-- ADC A,C (R107). -/
def execAdc_A_C (s : State) : Outcome := adcA (.reg .C) s

/-- ADC A,D (R107). -/
def execAdc_A_D (s : State) : Outcome := adcA (.reg .D) s

/-- ADC A,E (R107). -/
def execAdc_A_E (s : State) : Outcome := adcA (.reg .E) s

/-- ADC A,H (R107). -/
def execAdc_A_H (s : State) : Outcome := adcA (.reg .H) s

/-- ADC A,L (R107). -/
def execAdc_A_L (s : State) : Outcome := adcA (.reg .L) s

/-- ADC A,(HL) (R108). -/
def execAdc_A_indHL (s : State) : Outcome := adcA .indHL s

/-- ADC A,A (R107). -/
def execAdc_A_A (s : State) : Outcome := adcA (.reg .A) s

/-- SUB A,B (R110). -/
def execSub_A_B (s : State) : Outcome := subA (.reg .B) s

/-- SUB A,C (R110). -/
def execSub_A_C (s : State) : Outcome := subA (.reg .C) s

/-- SUB A,D (R110). -/
def execSub_A_D (s : State) : Outcome := subA (.reg .D) s

/-- SUB A,E (R110). -/
def execSub_A_E (s : State) : Outcome := subA (.reg .E) s

/-- SUB A,H (R110). -/
def execSub_A_H (s : State) : Outcome := subA (.reg .H) s

/-- SUB A,L (R110). -/
def execSub_A_L (s : State) : Outcome := subA (.reg .L) s

/-- SUB A,(HL) (R111). -/
def execSub_A_indHL (s : State) : Outcome := subA .indHL s

/-- SUB A,A (R110). -/
def execSub_A_A (s : State) : Outcome := subA (.reg .A) s

/-- SBC A,B (R113). -/
def execSbc_A_B (s : State) : Outcome := sbcA (.reg .B) s

/-- SBC A,C (R113). -/
def execSbc_A_C (s : State) : Outcome := sbcA (.reg .C) s

/-- SBC A,D (R113). -/
def execSbc_A_D (s : State) : Outcome := sbcA (.reg .D) s

/-- SBC A,E (R113). -/
def execSbc_A_E (s : State) : Outcome := sbcA (.reg .E) s

/-- SBC A,H (R113). -/
def execSbc_A_H (s : State) : Outcome := sbcA (.reg .H) s

/-- SBC A,L (R113). -/
def execSbc_A_L (s : State) : Outcome := sbcA (.reg .L) s

/-- SBC A,(HL) (R114). -/
def execSbc_A_indHL (s : State) : Outcome := sbcA .indHL s

/-- SBC A,A (R113). -/
def execSbc_A_A (s : State) : Outcome := sbcA (.reg .A) s

/-- ADD A,d8 (R106). -/
def execAdd_A_d8 (s : State) : Outcome := addA .imm8 s

/-- ADC A,d8 (R109). -/
def execAdc_A_d8 (s : State) : Outcome := adcA .imm8 s

/-- SUB A,d8 (R112). -/
def execSub_A_d8 (s : State) : Outcome := subA .imm8 s

/-- SBC A,d8 (R115). -/
def execSbc_A_d8 (s : State) : Outcome := sbcA .imm8 s

end Sys2Proof.Machine
end

