-- ==== Sys2Proof/Machine/Control.lean ====
section
/-! DEFINITION. Engine control (R200, R201). -/

namespace Sys2Proof.Machine

/-- The effect of NOP (R200). -/
def advance (s : State) : Outcome :=
  .next (s.setPc (s.pc + 1))

/-- The effect of HALT (R201). -/
def enterHalted (s : State) : Outcome :=
  .next ((s.setHalted true).setPc (s.pc + 1))

/-- NOP (R200). -/
def execNop (s : State) : Outcome := advance s

/-- HALT (R201). -/
def execHalt (s : State) : Outcome := enterHalted s

end Sys2Proof.Machine
end

