-- ==== Sys2Proof/Machine/Jump.lean ====
section
/-! DEFINITION. The control-flow family (R180, R181). -/

namespace Sys2Proof.Machine

/-- JP: a jump that is not taken does not read its target word (R181). -/
def jump (cc : Cond) (s : State) : Outcome :=
  commit
    (if holds s.flags cc then do
      let target ← imm16 s
      pure (s.setPc target)
    else pure (s.setPc (s.pc + 3)))

/-- JP NZ,a16 (R181). -/
def execJp_NZ_a16 (s : State) : Outcome := jump .NZ s

/-- JP a16 (R180). -/
def execJp_a16 (s : State) : Outcome := jump .always s

/-- JP Z,a16 (R181). -/
def execJp_Z_a16 (s : State) : Outcome := jump .Z s

/-- JP NC,a16 (R181). -/
def execJp_NC_a16 (s : State) : Outcome := jump .NC s

/-- JP C,a16 (R181). -/
def execJp_C_a16 (s : State) : Outcome := jump .C s

end Sys2Proof.Machine
end

