-- ==== Sys2Proof/Machine/Load.lean ====
section
/-! DEFINITION. The load family (R129 to R136). No load writes a flag. -/

namespace Sys2Proof.Machine

/-- An 8-bit load (R129 to R134): the source is read before the destination is written. -/
def loadByte (dst : Dst8) (src : Src8) (s : State) : Outcome :=
  commit do
    let v ← read8 s src
    let t ← write8 s dst v
    pure (t.setPc (s.pc + srcAdvance src))

/-- A 16-bit immediate load (R135, R136). -/
def loadWord (dst : Dst16) (s : State) : Outcome :=
  commit do
    let v ← imm16 s
    pure ((s.setDst16 dst v).setPc (s.pc + 3))

/-- LD BC,d16 (R135). -/
def execLd_BC_d16 (s : State) : Outcome := loadWord .BC s

/-- LD B,d8 (R133). -/
def execLd_B_d8 (s : State) : Outcome := loadByte (.reg .B) .imm8 s

/-- LD C,d8 (R133). -/
def execLd_C_d8 (s : State) : Outcome := loadByte (.reg .C) .imm8 s

/-- LD DE,d16 (R135). -/
def execLd_DE_d16 (s : State) : Outcome := loadWord .DE s

/-- LD D,d8 (R133). -/
def execLd_D_d8 (s : State) : Outcome := loadByte (.reg .D) .imm8 s

/-- LD E,d8 (R133). -/
def execLd_E_d8 (s : State) : Outcome := loadByte (.reg .E) .imm8 s

/-- LD HL,d16 (R135). -/
def execLd_HL_d16 (s : State) : Outcome := loadWord .HL s

/-- LD H,d8 (R133). -/
def execLd_H_d8 (s : State) : Outcome := loadByte (.reg .H) .imm8 s

/-- LD L,d8 (R133). -/
def execLd_L_d8 (s : State) : Outcome := loadByte (.reg .L) .imm8 s

/-- LD SP,d16 (R136). -/
def execLd_SP_d16 (s : State) : Outcome := loadWord .SP s

/-- LD (HL),d8 (R134). -/
def execLd_indHL_d8 (s : State) : Outcome := loadByte .indHL .imm8 s

/-- LD A,d8 (R133). -/
def execLd_A_d8 (s : State) : Outcome := loadByte (.reg .A) .imm8 s

/-- LD B,B (R130). -/
def execLd_B_B (s : State) : Outcome := loadByte (.reg .B) (.reg .B) s

/-- LD B,C (R130). -/
def execLd_B_C (s : State) : Outcome := loadByte (.reg .B) (.reg .C) s

/-- LD B,D (R130). -/
def execLd_B_D (s : State) : Outcome := loadByte (.reg .B) (.reg .D) s

/-- LD B,E (R130). -/
def execLd_B_E (s : State) : Outcome := loadByte (.reg .B) (.reg .E) s

/-- LD B,H (R130). -/
def execLd_B_H (s : State) : Outcome := loadByte (.reg .B) (.reg .H) s

/-- LD B,L (R130). -/
def execLd_B_L (s : State) : Outcome := loadByte (.reg .B) (.reg .L) s

/-- LD B,(HL) (R131). -/
def execLd_B_indHL (s : State) : Outcome := loadByte (.reg .B) .indHL s

/-- LD B,A (R130). -/
def execLd_B_A (s : State) : Outcome := loadByte (.reg .B) (.reg .A) s

/-- LD C,B (R130). -/
def execLd_C_B (s : State) : Outcome := loadByte (.reg .C) (.reg .B) s

/-- LD C,C (R130). -/
def execLd_C_C (s : State) : Outcome := loadByte (.reg .C) (.reg .C) s

/-- LD C,D (R130). -/
def execLd_C_D (s : State) : Outcome := loadByte (.reg .C) (.reg .D) s

/-- LD C,E (R130). -/
def execLd_C_E (s : State) : Outcome := loadByte (.reg .C) (.reg .E) s

/-- LD C,H (R130). -/
def execLd_C_H (s : State) : Outcome := loadByte (.reg .C) (.reg .H) s

/-- LD C,L (R130). -/
def execLd_C_L (s : State) : Outcome := loadByte (.reg .C) (.reg .L) s

/-- LD C,(HL) (R131). -/
def execLd_C_indHL (s : State) : Outcome := loadByte (.reg .C) .indHL s

/-- LD C,A (R130). -/
def execLd_C_A (s : State) : Outcome := loadByte (.reg .C) (.reg .A) s

/-- LD D,B (R130). -/
def execLd_D_B (s : State) : Outcome := loadByte (.reg .D) (.reg .B) s

/-- LD D,C (R130). -/
def execLd_D_C (s : State) : Outcome := loadByte (.reg .D) (.reg .C) s

/-- LD D,D (R130). -/
def execLd_D_D (s : State) : Outcome := loadByte (.reg .D) (.reg .D) s

/-- LD D,E (R130). -/
def execLd_D_E (s : State) : Outcome := loadByte (.reg .D) (.reg .E) s

/-- LD D,H (R130). -/
def execLd_D_H (s : State) : Outcome := loadByte (.reg .D) (.reg .H) s

/-- LD D,L (R130). -/
def execLd_D_L (s : State) : Outcome := loadByte (.reg .D) (.reg .L) s

/-- LD D,(HL) (R131). -/
def execLd_D_indHL (s : State) : Outcome := loadByte (.reg .D) .indHL s

/-- LD D,A (R130). -/
def execLd_D_A (s : State) : Outcome := loadByte (.reg .D) (.reg .A) s

/-- LD E,B (R130). -/
def execLd_E_B (s : State) : Outcome := loadByte (.reg .E) (.reg .B) s

/-- LD E,C (R130). -/
def execLd_E_C (s : State) : Outcome := loadByte (.reg .E) (.reg .C) s

/-- LD E,D (R130). -/
def execLd_E_D (s : State) : Outcome := loadByte (.reg .E) (.reg .D) s

/-- LD E,E (R130). -/
def execLd_E_E (s : State) : Outcome := loadByte (.reg .E) (.reg .E) s

/-- LD E,H (R130). -/
def execLd_E_H (s : State) : Outcome := loadByte (.reg .E) (.reg .H) s

/-- LD E,L (R130). -/
def execLd_E_L (s : State) : Outcome := loadByte (.reg .E) (.reg .L) s

/-- LD E,(HL) (R131). -/
def execLd_E_indHL (s : State) : Outcome := loadByte (.reg .E) .indHL s

/-- LD E,A (R130). -/
def execLd_E_A (s : State) : Outcome := loadByte (.reg .E) (.reg .A) s

/-- LD H,B (R130). -/
def execLd_H_B (s : State) : Outcome := loadByte (.reg .H) (.reg .B) s

/-- LD H,C (R130). -/
def execLd_H_C (s : State) : Outcome := loadByte (.reg .H) (.reg .C) s

/-- LD H,D (R130). -/
def execLd_H_D (s : State) : Outcome := loadByte (.reg .H) (.reg .D) s

/-- LD H,E (R130). -/
def execLd_H_E (s : State) : Outcome := loadByte (.reg .H) (.reg .E) s

/-- LD H,H (R130). -/
def execLd_H_H (s : State) : Outcome := loadByte (.reg .H) (.reg .H) s

/-- LD H,L (R130). -/
def execLd_H_L (s : State) : Outcome := loadByte (.reg .H) (.reg .L) s

/-- LD H,(HL) (R131). -/
def execLd_H_indHL (s : State) : Outcome := loadByte (.reg .H) .indHL s

/-- LD H,A (R130). -/
def execLd_H_A (s : State) : Outcome := loadByte (.reg .H) (.reg .A) s

/-- LD L,B (R130). -/
def execLd_L_B (s : State) : Outcome := loadByte (.reg .L) (.reg .B) s

/-- LD L,C (R130). -/
def execLd_L_C (s : State) : Outcome := loadByte (.reg .L) (.reg .C) s

/-- LD L,D (R130). -/
def execLd_L_D (s : State) : Outcome := loadByte (.reg .L) (.reg .D) s

/-- LD L,E (R130). -/
def execLd_L_E (s : State) : Outcome := loadByte (.reg .L) (.reg .E) s

/-- LD L,H (R130). -/
def execLd_L_H (s : State) : Outcome := loadByte (.reg .L) (.reg .H) s

/-- LD L,L (R130). -/
def execLd_L_L (s : State) : Outcome := loadByte (.reg .L) (.reg .L) s

/-- LD L,(HL) (R131). -/
def execLd_L_indHL (s : State) : Outcome := loadByte (.reg .L) .indHL s

/-- LD L,A (R130). -/
def execLd_L_A (s : State) : Outcome := loadByte (.reg .L) (.reg .A) s

/-- LD (HL),B (R132). -/
def execLd_indHL_B (s : State) : Outcome := loadByte .indHL (.reg .B) s

/-- LD (HL),C (R132). -/
def execLd_indHL_C (s : State) : Outcome := loadByte .indHL (.reg .C) s

/-- LD (HL),D (R132). -/
def execLd_indHL_D (s : State) : Outcome := loadByte .indHL (.reg .D) s

/-- LD (HL),E (R132). -/
def execLd_indHL_E (s : State) : Outcome := loadByte .indHL (.reg .E) s

/-- LD (HL),H (R132). -/
def execLd_indHL_H (s : State) : Outcome := loadByte .indHL (.reg .H) s

/-- LD (HL),L (R132). -/
def execLd_indHL_L (s : State) : Outcome := loadByte .indHL (.reg .L) s

/-- LD (HL),A (R132). -/
def execLd_indHL_A (s : State) : Outcome := loadByte .indHL (.reg .A) s

/-- LD A,B (R130). -/
def execLd_A_B (s : State) : Outcome := loadByte (.reg .A) (.reg .B) s

/-- LD A,C (R130). -/
def execLd_A_C (s : State) : Outcome := loadByte (.reg .A) (.reg .C) s

/-- LD A,D (R130). -/
def execLd_A_D (s : State) : Outcome := loadByte (.reg .A) (.reg .D) s

/-- LD A,E (R130). -/
def execLd_A_E (s : State) : Outcome := loadByte (.reg .A) (.reg .E) s

/-- LD A,H (R130). -/
def execLd_A_H (s : State) : Outcome := loadByte (.reg .A) (.reg .H) s

/-- LD A,L (R130). -/
def execLd_A_L (s : State) : Outcome := loadByte (.reg .A) (.reg .L) s

/-- LD A,(HL) (R131). -/
def execLd_A_indHL (s : State) : Outcome := loadByte (.reg .A) .indHL s

/-- LD A,A (R130). -/
def execLd_A_A (s : State) : Outcome := loadByte (.reg .A) (.reg .A) s

end Sys2Proof.Machine
end

