-- ==== Sys2Proof/Decode.lean ====
section
/-! DEFINITION. The decoder, by the bit fields of R81 to R85, and after it the encoder, by the opcode maps of R91 and
R93. The two are written from different tables of the spec; that they agree is proved, not assumed. The byte values other
than 0x00 and 0xCB are the spec's general knowledge (R91, D1; log 3). -/

namespace Sys2Proof

/-- The bit field of `b` that starts at bit `lo` and is `len` bits wide (R8). -/
def bitField (b : Byte) (lo len : Nat) : Nat :=
  b.toNat / 2 ^ lo % 2 ^ len

/-- The prefix escape (R6, R89). -/
def prefixEscape : Byte := 0xCB#8

/-- The 3-bit register field of R82 as a destination. -/
def dstOfField : Nat → Option Dst8
  | 0 => some (.reg .B)
  | 1 => some (.reg .C)
  | 2 => some (.reg .D)
  | 3 => some (.reg .E)
  | 4 => some (.reg .H)
  | 5 => some (.reg .L)
  | 6 => some .indHL
  | 7 => some (.reg .A)
  | _ => none

/-- A destination read as a source operand. -/
def srcOfDst : Dst8 → Src8
  | .reg r => .reg r
  | .indHL => .indHL

/-- The 3-bit register field of R82 as a source. -/
def srcOfField (n : Nat) : Option Src8 :=
  (dstOfField n).map srcOfDst

/-- The 2-bit pair field `pp` of LD rr,d16 (R83). -/
def dst16OfField : Nat → Option Dst16
  | 0 => some .BC
  | 1 => some .DE
  | 2 => some .HL
  | 3 => some .SP
  | _ => none

/-- The 2-bit pair field `qq` of PUSH and POP (R83). -/
def pairOfField : Nat → Option Pair
  | 0 => some .BC
  | 1 => some .DE
  | 2 => some .HL
  | 3 => some .AF
  | _ => none

/-- The 2-bit condition field `cc` (R84). -/
def condOfField : Nat → Option Cond
  | 0 => some .NZ
  | 1 => some .Z
  | 2 => some .NC
  | 3 => some .C
  | _ => none

/-- The 3-bit operation field `ooo` (R85); 100 to 111 are not mapped. -/
def aluOfField : Nat → Option AluOp
  | 0 => some .add
  | 1 => some .adc
  | 2 => some .sub
  | 3 => some .sbc
  | _ => none

/-- Bits 7..6 = 00 (R81): NOP, LD r,d8, LD (HL),d8, LD rr,d16. -/
def decodeQuarter0 (b : Byte) : Option Form :=
  if b = 0x00#8 then some .nop
  else if bitField b 0 3 = 6 then (dstOfField (bitField b 3 3)).map (fun d => .ld8 d .imm8)
  else if bitField b 0 4 = 1 then (dst16OfField (bitField b 4 2)).map .ld16
  else none

/-- Bits 7..6 = 01 (R81): the loads, and HALT in the place of the load from `(HL)` to `(HL)` (R94). -/
def decodeQuarter1 (b : Byte) : Option Form :=
  if b = 0x76#8 then some .halt
  else
    match dstOfField (bitField b 3 3), srcOfField (bitField b 0 3) with
    | some d, some s => some (.ld8 d s)
    | _, _ => none

/-- Bits 7..6 = 10 (R81): ALU A,r and ALU A,(HL). -/
def decodeQuarter2 (b : Byte) : Option Form :=
  match aluOfField (bitField b 3 3), srcOfField (bitField b 0 3) with
  | some op, some s => some (.alu op s)
  | _, _ => none

/-- Bits 7..6 = 11 (R81): ALU A,d8, PUSH, POP, JP, CALL, RET. -/
def decodeQuarter3 (b : Byte) : Option Form :=
  if b = 0xC3#8 then some (.jp .always)
  else if b = 0xCD#8 then some (.call .always)
  else if b = 0xC9#8 then some (.ret .always)
  else if bitField b 0 3 = 6 then (aluOfField (bitField b 3 3)).map (fun op => .alu op .imm8)
  else if bitField b 0 4 = 5 then (pairOfField (bitField b 4 2)).map .push
  else if bitField b 0 4 = 1 then (pairOfField (bitField b 4 2)).map .pop
  else if bitField b 5 1 = 1 then none
  else if bitField b 0 3 = 2 then (condOfField (bitField b 3 2)).map .jp
  else if bitField b 0 3 = 4 then (condOfField (bitField b 3 2)).map .call
  else if bitField b 0 3 = 0 then (condOfField (bitField b 3 2)).map .ret
  else none

/-- The plain table (R88, R91) by the fields of R81. -/
def decodePlainForm (b : Byte) : Option Form :=
  match bitField b 6 2 with
  | 0 => decodeQuarter0 b
  | 1 => decodeQuarter1 b
  | 2 => decodeQuarter2 b
  | _ => decodeQuarter3 b

/-- The prefixed table (R88, R93): `00110 sss` is SWAP. -/
def decodePrefixedForm (b : Byte) : Option Form :=
  if bitField b 3 5 = 6 then (dstOfField (bitField b 0 3)).map .swap else none

/-- The instruction a form names; the ill-formed form names none (R94, R204). -/
def instrOfForm : Form → Option Instr
  -- engine control (R200, R201)
  | .nop => some .nop
  | .halt => some .halt
  -- loads (R130 to R136)
  | .ld16 .BC => some .ld_BC_d16
  | .ld8 (.reg .B) .imm8 => some .ld_B_d8
  | .ld8 (.reg .C) .imm8 => some .ld_C_d8
  | .ld16 .DE => some .ld_DE_d16
  | .ld8 (.reg .D) .imm8 => some .ld_D_d8
  | .ld8 (.reg .E) .imm8 => some .ld_E_d8
  | .ld16 .HL => some .ld_HL_d16
  | .ld8 (.reg .H) .imm8 => some .ld_H_d8
  | .ld8 (.reg .L) .imm8 => some .ld_L_d8
  | .ld16 .SP => some .ld_SP_d16
  | .ld8 .indHL .imm8 => some .ld_indHL_d8
  | .ld8 (.reg .A) .imm8 => some .ld_A_d8
  | .ld8 (.reg .B) (.reg .B) => some .ld_B_B
  | .ld8 (.reg .B) (.reg .C) => some .ld_B_C
  | .ld8 (.reg .B) (.reg .D) => some .ld_B_D
  | .ld8 (.reg .B) (.reg .E) => some .ld_B_E
  | .ld8 (.reg .B) (.reg .H) => some .ld_B_H
  | .ld8 (.reg .B) (.reg .L) => some .ld_B_L
  | .ld8 (.reg .B) .indHL => some .ld_B_indHL
  | .ld8 (.reg .B) (.reg .A) => some .ld_B_A
  | .ld8 (.reg .C) (.reg .B) => some .ld_C_B
  | .ld8 (.reg .C) (.reg .C) => some .ld_C_C
  | .ld8 (.reg .C) (.reg .D) => some .ld_C_D
  | .ld8 (.reg .C) (.reg .E) => some .ld_C_E
  | .ld8 (.reg .C) (.reg .H) => some .ld_C_H
  | .ld8 (.reg .C) (.reg .L) => some .ld_C_L
  | .ld8 (.reg .C) .indHL => some .ld_C_indHL
  | .ld8 (.reg .C) (.reg .A) => some .ld_C_A
  | .ld8 (.reg .D) (.reg .B) => some .ld_D_B
  | .ld8 (.reg .D) (.reg .C) => some .ld_D_C
  | .ld8 (.reg .D) (.reg .D) => some .ld_D_D
  | .ld8 (.reg .D) (.reg .E) => some .ld_D_E
  | .ld8 (.reg .D) (.reg .H) => some .ld_D_H
  | .ld8 (.reg .D) (.reg .L) => some .ld_D_L
  | .ld8 (.reg .D) .indHL => some .ld_D_indHL
  | .ld8 (.reg .D) (.reg .A) => some .ld_D_A
  | .ld8 (.reg .E) (.reg .B) => some .ld_E_B
  | .ld8 (.reg .E) (.reg .C) => some .ld_E_C
  | .ld8 (.reg .E) (.reg .D) => some .ld_E_D
  | .ld8 (.reg .E) (.reg .E) => some .ld_E_E
  | .ld8 (.reg .E) (.reg .H) => some .ld_E_H
  | .ld8 (.reg .E) (.reg .L) => some .ld_E_L
  | .ld8 (.reg .E) .indHL => some .ld_E_indHL
  | .ld8 (.reg .E) (.reg .A) => some .ld_E_A
  | .ld8 (.reg .H) (.reg .B) => some .ld_H_B
  | .ld8 (.reg .H) (.reg .C) => some .ld_H_C
  | .ld8 (.reg .H) (.reg .D) => some .ld_H_D
  | .ld8 (.reg .H) (.reg .E) => some .ld_H_E
  | .ld8 (.reg .H) (.reg .H) => some .ld_H_H
  | .ld8 (.reg .H) (.reg .L) => some .ld_H_L
  | .ld8 (.reg .H) .indHL => some .ld_H_indHL
  | .ld8 (.reg .H) (.reg .A) => some .ld_H_A
  | .ld8 (.reg .L) (.reg .B) => some .ld_L_B
  | .ld8 (.reg .L) (.reg .C) => some .ld_L_C
  | .ld8 (.reg .L) (.reg .D) => some .ld_L_D
  | .ld8 (.reg .L) (.reg .E) => some .ld_L_E
  | .ld8 (.reg .L) (.reg .H) => some .ld_L_H
  | .ld8 (.reg .L) (.reg .L) => some .ld_L_L
  | .ld8 (.reg .L) .indHL => some .ld_L_indHL
  | .ld8 (.reg .L) (.reg .A) => some .ld_L_A
  | .ld8 .indHL (.reg .B) => some .ld_indHL_B
  | .ld8 .indHL (.reg .C) => some .ld_indHL_C
  | .ld8 .indHL (.reg .D) => some .ld_indHL_D
  | .ld8 .indHL (.reg .E) => some .ld_indHL_E
  | .ld8 .indHL (.reg .H) => some .ld_indHL_H
  | .ld8 .indHL (.reg .L) => some .ld_indHL_L
  | .ld8 .indHL (.reg .A) => some .ld_indHL_A
  | .ld8 (.reg .A) (.reg .B) => some .ld_A_B
  | .ld8 (.reg .A) (.reg .C) => some .ld_A_C
  | .ld8 (.reg .A) (.reg .D) => some .ld_A_D
  | .ld8 (.reg .A) (.reg .E) => some .ld_A_E
  | .ld8 (.reg .A) (.reg .H) => some .ld_A_H
  | .ld8 (.reg .A) (.reg .L) => some .ld_A_L
  | .ld8 (.reg .A) .indHL => some .ld_A_indHL
  | .ld8 (.reg .A) (.reg .A) => some .ld_A_A
  -- arithmetic (R104 to R115)
  | .alu .add (.reg .B) => some .add_A_B
  | .alu .add (.reg .C) => some .add_A_C
  | .alu .add (.reg .D) => some .add_A_D
  | .alu .add (.reg .E) => some .add_A_E
  | .alu .add (.reg .H) => some .add_A_H
  | .alu .add (.reg .L) => some .add_A_L
  | .alu .add .indHL => some .add_A_indHL
  | .alu .add (.reg .A) => some .add_A_A
  | .alu .adc (.reg .B) => some .adc_A_B
  | .alu .adc (.reg .C) => some .adc_A_C
  | .alu .adc (.reg .D) => some .adc_A_D
  | .alu .adc (.reg .E) => some .adc_A_E
  | .alu .adc (.reg .H) => some .adc_A_H
  | .alu .adc (.reg .L) => some .adc_A_L
  | .alu .adc .indHL => some .adc_A_indHL
  | .alu .adc (.reg .A) => some .adc_A_A
  | .alu .sub (.reg .B) => some .sub_A_B
  | .alu .sub (.reg .C) => some .sub_A_C
  | .alu .sub (.reg .D) => some .sub_A_D
  | .alu .sub (.reg .E) => some .sub_A_E
  | .alu .sub (.reg .H) => some .sub_A_H
  | .alu .sub (.reg .L) => some .sub_A_L
  | .alu .sub .indHL => some .sub_A_indHL
  | .alu .sub (.reg .A) => some .sub_A_A
  | .alu .sbc (.reg .B) => some .sbc_A_B
  | .alu .sbc (.reg .C) => some .sbc_A_C
  | .alu .sbc (.reg .D) => some .sbc_A_D
  | .alu .sbc (.reg .E) => some .sbc_A_E
  | .alu .sbc (.reg .H) => some .sbc_A_H
  | .alu .sbc (.reg .L) => some .sbc_A_L
  | .alu .sbc .indHL => some .sbc_A_indHL
  | .alu .sbc (.reg .A) => some .sbc_A_A
  | .alu .add .imm8 => some .add_A_d8
  | .alu .adc .imm8 => some .adc_A_d8
  | .alu .sub .imm8 => some .sub_A_d8
  | .alu .sbc .imm8 => some .sbc_A_d8
  -- stack, call and return (R156 to R165)
  | .ret .NZ => some .ret_NZ
  | .pop .BC => some .pop_BC
  | .call .NZ => some .call_NZ_a16
  | .push .BC => some .push_BC
  | .ret .Z => some .ret_Z
  | .ret .always => some .ret
  | .call .Z => some .call_Z_a16
  | .call .always => some .call_a16
  | .ret .NC => some .ret_NC
  | .pop .DE => some .pop_DE
  | .call .NC => some .call_NC_a16
  | .push .DE => some .push_DE
  | .ret .C => some .ret_C
  | .call .C => some .call_C_a16
  | .pop .HL => some .pop_HL
  | .push .HL => some .push_HL
  | .pop .AF => some .pop_AF
  | .push .AF => some .push_AF
  -- jumps (R180, R181)
  | .jp .NZ => some .jp_NZ_a16
  | .jp .always => some .jp_a16
  | .jp .Z => some .jp_Z_a16
  | .jp .NC => some .jp_NC_a16
  | .jp .C => some .jp_C_a16
  -- the prefixed page (R193, R194)
  | .swap (.reg .B) => some .swap_B
  | .swap (.reg .C) => some .swap_C
  | .swap (.reg .D) => some .swap_D
  | .swap (.reg .E) => some .swap_E
  | .swap (.reg .H) => some .swap_H
  | .swap (.reg .L) => some .swap_L
  | .swap .indHL => some .swap_indHL
  | .swap (.reg .A) => some .swap_A
  -- no encoding
  | .ld8 .indHL .indHL => none

/-- `decode(opcode_byte, is_prefixed)` of R88. -/
def decodeByte (b : Byte) (isPrefixed : Bool) : Option Instr :=
  (if isPrefixed then decodePrefixedForm b else decodePlainForm b).bind instrOfForm

/-- Why a list of bytes holds no instruction. -/
inductive Reject where
  /-- The list ends before the operation byte (log 4). -/
  | truncated
  /-- The byte has no entry in the table of that page (R92, R93, R221). -/
  | unmapped (byte : Byte) (page : Page)
deriving DecidableEq, Repr

/-- One table look-up that rejects by name. -/
def lookUp (b : Byte) (page : Page) (rest : List Byte) : Except Reject (Instr × List Byte) :=
  match decodeByte b (page == .prefixed) with
  | some i => .ok (i, rest)
  | none => .error (.unmapped b page)

/-- R89 over any bytes: the instruction they begin with and the bytes after its operation byte, where its operand
bytes stand (R86). -/
def decode : List Byte → Except Reject (Instr × List Byte)
  | [] => .error .truncated
  | b0 :: rest =>
    if b0 = prefixEscape then
      match rest with
      | [] => .error .truncated
      | b1 :: rest' => lookUp b1 .prefixed rest'
    else lookUp b0 .plain rest

/-- The three lowest bytes of an instruction's bits, lowest address first; bits from `nbits` up are zero. -/
def tableWordBytes (nbits w : Nat) : List Byte :=
  let v := w % 2 ^ nbits
  [BitVec.ofNat 8 v, BitVec.ofNat 8 (v / 256), BitVec.ofNat 8 (v / 65536)]

/-- The instruction the decoder reads from bits numbered as spec/opcode_table.json numbers them. -/
def decodeTableWord (nbits w : Nat) : Option Instr :=
  match decode (tableWordBytes nbits w) with
  | .ok (i, _) => some i
  | .error _ => none

/-- The opcode bytes of each instruction, from the opcode maps of R91 and R93. -/
def encode : Instr → List Byte
  | .nop => [0x00#8]
  | .ld_BC_d16 => [0x01#8]
  | .ld_B_d8 => [0x06#8]
  | .ld_C_d8 => [0x0E#8]
  | .ld_DE_d16 => [0x11#8]
  | .ld_D_d8 => [0x16#8]
  | .ld_E_d8 => [0x1E#8]
  | .ld_HL_d16 => [0x21#8]
  | .ld_H_d8 => [0x26#8]
  | .ld_L_d8 => [0x2E#8]
  | .ld_SP_d16 => [0x31#8]
  | .ld_indHL_d8 => [0x36#8]
  | .ld_A_d8 => [0x3E#8]
  | .ld_B_B => [0x40#8]
  | .ld_B_C => [0x41#8]
  | .ld_B_D => [0x42#8]
  | .ld_B_E => [0x43#8]
  | .ld_B_H => [0x44#8]
  | .ld_B_L => [0x45#8]
  | .ld_B_indHL => [0x46#8]
  | .ld_B_A => [0x47#8]
  | .ld_C_B => [0x48#8]
  | .ld_C_C => [0x49#8]
  | .ld_C_D => [0x4A#8]
  | .ld_C_E => [0x4B#8]
  | .ld_C_H => [0x4C#8]
  | .ld_C_L => [0x4D#8]
  | .ld_C_indHL => [0x4E#8]
  | .ld_C_A => [0x4F#8]
  | .ld_D_B => [0x50#8]
  | .ld_D_C => [0x51#8]
  | .ld_D_D => [0x52#8]
  | .ld_D_E => [0x53#8]
  | .ld_D_H => [0x54#8]
  | .ld_D_L => [0x55#8]
  | .ld_D_indHL => [0x56#8]
  | .ld_D_A => [0x57#8]
  | .ld_E_B => [0x58#8]
  | .ld_E_C => [0x59#8]
  | .ld_E_D => [0x5A#8]
  | .ld_E_E => [0x5B#8]
  | .ld_E_H => [0x5C#8]
  | .ld_E_L => [0x5D#8]
  | .ld_E_indHL => [0x5E#8]
  | .ld_E_A => [0x5F#8]
  | .ld_H_B => [0x60#8]
  | .ld_H_C => [0x61#8]
  | .ld_H_D => [0x62#8]
  | .ld_H_E => [0x63#8]
  | .ld_H_H => [0x64#8]
  | .ld_H_L => [0x65#8]
  | .ld_H_indHL => [0x66#8]
  | .ld_H_A => [0x67#8]
  | .ld_L_B => [0x68#8]
  | .ld_L_C => [0x69#8]
  | .ld_L_D => [0x6A#8]
  | .ld_L_E => [0x6B#8]
  | .ld_L_H => [0x6C#8]
  | .ld_L_L => [0x6D#8]
  | .ld_L_indHL => [0x6E#8]
  | .ld_L_A => [0x6F#8]
  | .ld_indHL_B => [0x70#8]
  | .ld_indHL_C => [0x71#8]
  | .ld_indHL_D => [0x72#8]
  | .ld_indHL_E => [0x73#8]
  | .ld_indHL_H => [0x74#8]
  | .ld_indHL_L => [0x75#8]
  | .halt => [0x76#8]
  | .ld_indHL_A => [0x77#8]
  | .ld_A_B => [0x78#8]
  | .ld_A_C => [0x79#8]
  | .ld_A_D => [0x7A#8]
  | .ld_A_E => [0x7B#8]
  | .ld_A_H => [0x7C#8]
  | .ld_A_L => [0x7D#8]
  | .ld_A_indHL => [0x7E#8]
  | .ld_A_A => [0x7F#8]
  | .add_A_B => [0x80#8]
  | .add_A_C => [0x81#8]
  | .add_A_D => [0x82#8]
  | .add_A_E => [0x83#8]
  | .add_A_H => [0x84#8]
  | .add_A_L => [0x85#8]
  | .add_A_indHL => [0x86#8]
  | .add_A_A => [0x87#8]
  | .adc_A_B => [0x88#8]
  | .adc_A_C => [0x89#8]
  | .adc_A_D => [0x8A#8]
  | .adc_A_E => [0x8B#8]
  | .adc_A_H => [0x8C#8]
  | .adc_A_L => [0x8D#8]
  | .adc_A_indHL => [0x8E#8]
  | .adc_A_A => [0x8F#8]
  | .sub_A_B => [0x90#8]
  | .sub_A_C => [0x91#8]
  | .sub_A_D => [0x92#8]
  | .sub_A_E => [0x93#8]
  | .sub_A_H => [0x94#8]
  | .sub_A_L => [0x95#8]
  | .sub_A_indHL => [0x96#8]
  | .sub_A_A => [0x97#8]
  | .sbc_A_B => [0x98#8]
  | .sbc_A_C => [0x99#8]
  | .sbc_A_D => [0x9A#8]
  | .sbc_A_E => [0x9B#8]
  | .sbc_A_H => [0x9C#8]
  | .sbc_A_L => [0x9D#8]
  | .sbc_A_indHL => [0x9E#8]
  | .sbc_A_A => [0x9F#8]
  | .ret_NZ => [0xC0#8]
  | .pop_BC => [0xC1#8]
  | .jp_NZ_a16 => [0xC2#8]
  | .jp_a16 => [0xC3#8]
  | .call_NZ_a16 => [0xC4#8]
  | .push_BC => [0xC5#8]
  | .add_A_d8 => [0xC6#8]
  | .ret_Z => [0xC8#8]
  | .ret => [0xC9#8]
  | .jp_Z_a16 => [0xCA#8]
  | .call_Z_a16 => [0xCC#8]
  | .call_a16 => [0xCD#8]
  | .adc_A_d8 => [0xCE#8]
  | .ret_NC => [0xD0#8]
  | .pop_DE => [0xD1#8]
  | .jp_NC_a16 => [0xD2#8]
  | .call_NC_a16 => [0xD4#8]
  | .push_DE => [0xD5#8]
  | .sub_A_d8 => [0xD6#8]
  | .ret_C => [0xD8#8]
  | .jp_C_a16 => [0xDA#8]
  | .call_C_a16 => [0xDC#8]
  | .sbc_A_d8 => [0xDE#8]
  | .pop_HL => [0xE1#8]
  | .push_HL => [0xE5#8]
  | .pop_AF => [0xF1#8]
  | .push_AF => [0xF5#8]
  | .swap_B => [0xCB#8, 0x30#8]
  | .swap_C => [0xCB#8, 0x31#8]
  | .swap_D => [0xCB#8, 0x32#8]
  | .swap_E => [0xCB#8, 0x33#8]
  | .swap_H => [0xCB#8, 0x34#8]
  | .swap_L => [0xCB#8, 0x35#8]
  | .swap_indHL => [0xCB#8, 0x36#8]
  | .swap_A => [0xCB#8, 0x37#8]

/-- An instruction with its operand bytes, `op, n` or `op, lo, hi` (R80). -/
def encodeWith (i : Instr) (operands : List Byte) : List Byte :=
  encode i ++ operands

/-- The register code of R82. -/
def regCode : Reg8 → Byte
  | .B => 0#8
  | .C => 1#8
  | .D => 2#8
  | .E => 3#8
  | .H => 4#8
  | .L => 5#8
  | .A => 7#8

/-- The pair code `pp` of R83. -/
def dst16Code : Dst16 → Byte
  | .BC => 0#8
  | .DE => 1#8
  | .HL => 2#8
  | .SP => 3#8

/-- The pair code `qq` of R83. -/
def pairCode : Pair → Byte
  | .BC => 0#8
  | .DE => 1#8
  | .HL => 2#8
  | .AF => 3#8

end Sys2Proof
end

