-- ==== Sys2Proof/Machine/Prefixed.lean ====
section
/-! DEFINITION. The prefixed family (R190 to R194): SWAP of a register or of the byte at `pair(HL)`. -/

namespace Sys2Proof.Machine

/-- SWAP (R193, R194): for `(HL)`, a read and then a write of the same address. -/
def swapNibblesOf (dst : Dst8) (s : State) : Outcome :=
  commit do
    let v ← read8 s (srcOfDst dst)
    let res := swapNibbles v
    let t ← write8 s dst res
    pure ((t.setFlags (flagsAfterSwap s.params.swapFlags s.flags res)).setPc (s.pc + 2))

/-- SWAP B (R193). -/
def execSwap_B (s : State) : Outcome := swapNibblesOf (.reg .B) s

/-- SWAP C (R193). -/
def execSwap_C (s : State) : Outcome := swapNibblesOf (.reg .C) s

/-- SWAP D (R193). -/
def execSwap_D (s : State) : Outcome := swapNibblesOf (.reg .D) s

/-- SWAP E (R193). -/
def execSwap_E (s : State) : Outcome := swapNibblesOf (.reg .E) s

/-- SWAP H (R193). -/
def execSwap_H (s : State) : Outcome := swapNibblesOf (.reg .H) s

/-- SWAP L (R193). -/
def execSwap_L (s : State) : Outcome := swapNibblesOf (.reg .L) s

/-- SWAP (HL) (R194). -/
def execSwap_indHL (s : State) : Outcome := swapNibblesOf .indHL s

/-- SWAP A (R193). -/
def execSwap_A (s : State) : Outcome := swapNibblesOf (.reg .A) s

end Sys2Proof.Machine
end

