-- ==== Sys2Proof/Machine/Stack.lean ====
section
/-! DEFINITION. The stack family (R156 to R165): PUSH, POP, CALL and RET. -/

namespace Sys2Proof.Machine

/-- PUSH qq (R156). -/
def pushPair (p : Pair) (s : State) : Outcome :=
  commit do
    let t ← push s (readPair s p)
    pure (t.setPc (s.pc + 1))

/-- POP rr and POP AF (R157, R158). -/
def popPair (p : Pair) (s : State) : Outcome :=
  commit do
    let (v, t) ← pop s
    pure ((t.setPair p v).setPc (s.pc + 1))

/-- CALL (R160 to R162): a taken call pushes the return address and THEN reads its target (D12); one that is not taken
makes no access. -/
def callSub (cc : Cond) (s : State) : Outcome :=
  commit
    (if holds s.flags cc then do
      let t ← push s (s.pc + 3)
      let target ← imm16 t
      pure (t.setPc target)
    else pure (s.setPc (s.pc + 3)))

/-- RET (R164, R165). -/
def returnSub (cc : Cond) (s : State) : Outcome :=
  commit
    (if holds s.flags cc then do
      let (target, t) ← pop s
      pure (t.setPc target)
    else pure (s.setPc (s.pc + 1)))

/-- RET NZ (R165). -/
def execRet_NZ (s : State) : Outcome := returnSub .NZ s

/-- POP BC (R157). -/
def execPop_BC (s : State) : Outcome := popPair .BC s

/-- CALL NZ,a16 (R161). -/
def execCall_NZ_a16 (s : State) : Outcome := callSub .NZ s

/-- PUSH BC (R156). -/
def execPush_BC (s : State) : Outcome := pushPair .BC s

/-- RET Z (R165). -/
def execRet_Z (s : State) : Outcome := returnSub .Z s

/-- RET (R164). -/
def execRet (s : State) : Outcome := returnSub .always s

/-- CALL Z,a16 (R161). -/
def execCall_Z_a16 (s : State) : Outcome := callSub .Z s

/-- CALL a16 (R160). -/
def execCall_a16 (s : State) : Outcome := callSub .always s

/-- RET NC (R165). -/
def execRet_NC (s : State) : Outcome := returnSub .NC s

/-- POP DE (R157). -/
def execPop_DE (s : State) : Outcome := popPair .DE s

/-- CALL NC,a16 (R161). -/
def execCall_NC_a16 (s : State) : Outcome := callSub .NC s

/-- PUSH DE (R156). -/
def execPush_DE (s : State) : Outcome := pushPair .DE s

/-- RET C (R165). -/
def execRet_C (s : State) : Outcome := returnSub .C s

/-- CALL C,a16 (R161). -/
def execCall_C_a16 (s : State) : Outcome := callSub .C s

/-- POP HL (R157). -/
def execPop_HL (s : State) : Outcome := popPair .HL s

/-- PUSH HL (R156). -/
def execPush_HL (s : State) : Outcome := pushPair .HL s

/-- POP AF (R158). -/
def execPop_AF (s : State) : Outcome := popPair .AF s

/-- PUSH AF (R156). -/
def execPush_AF (s : State) : Outcome := pushPair .AF s

end Sys2Proof.Machine
end

