-- ==== Sys2Proof/Machine/Dispatch.lean ====
section
/-! DEFINITION. The single exhaustive match of R202: one arm per instruction, one meaning per arm (R204). -/

namespace Sys2Proof.Machine

def exec (i : Instr) (s : State) : Host.Outcome State Fault Refusal :=
  match i with
  -- Control
  | .nop => Sys2Proof.Machine.execNop s
  | .halt => Sys2Proof.Machine.execHalt s
  -- Load
  | .ld_BC_d16 => Sys2Proof.Machine.execLd_BC_d16 s
  | .ld_B_d8 => Sys2Proof.Machine.execLd_B_d8 s
  | .ld_C_d8 => Sys2Proof.Machine.execLd_C_d8 s
  | .ld_DE_d16 => Sys2Proof.Machine.execLd_DE_d16 s
  | .ld_D_d8 => Sys2Proof.Machine.execLd_D_d8 s
  | .ld_E_d8 => Sys2Proof.Machine.execLd_E_d8 s
  | .ld_HL_d16 => Sys2Proof.Machine.execLd_HL_d16 s
  | .ld_H_d8 => Sys2Proof.Machine.execLd_H_d8 s
  | .ld_L_d8 => Sys2Proof.Machine.execLd_L_d8 s
  | .ld_SP_d16 => Sys2Proof.Machine.execLd_SP_d16 s
  | .ld_indHL_d8 => Sys2Proof.Machine.execLd_indHL_d8 s
  | .ld_A_d8 => Sys2Proof.Machine.execLd_A_d8 s
  | .ld_B_B => Sys2Proof.Machine.execLd_B_B s
  | .ld_B_C => Sys2Proof.Machine.execLd_B_C s
  | .ld_B_D => Sys2Proof.Machine.execLd_B_D s
  | .ld_B_E => Sys2Proof.Machine.execLd_B_E s
  | .ld_B_H => Sys2Proof.Machine.execLd_B_H s
  | .ld_B_L => Sys2Proof.Machine.execLd_B_L s
  | .ld_B_indHL => Sys2Proof.Machine.execLd_B_indHL s
  | .ld_B_A => Sys2Proof.Machine.execLd_B_A s
  | .ld_C_B => Sys2Proof.Machine.execLd_C_B s
  | .ld_C_C => Sys2Proof.Machine.execLd_C_C s
  | .ld_C_D => Sys2Proof.Machine.execLd_C_D s
  | .ld_C_E => Sys2Proof.Machine.execLd_C_E s
  | .ld_C_H => Sys2Proof.Machine.execLd_C_H s
  | .ld_C_L => Sys2Proof.Machine.execLd_C_L s
  | .ld_C_indHL => Sys2Proof.Machine.execLd_C_indHL s
  | .ld_C_A => Sys2Proof.Machine.execLd_C_A s
  | .ld_D_B => Sys2Proof.Machine.execLd_D_B s
  | .ld_D_C => Sys2Proof.Machine.execLd_D_C s
  | .ld_D_D => Sys2Proof.Machine.execLd_D_D s
  | .ld_D_E => Sys2Proof.Machine.execLd_D_E s
  | .ld_D_H => Sys2Proof.Machine.execLd_D_H s
  | .ld_D_L => Sys2Proof.Machine.execLd_D_L s
  | .ld_D_indHL => Sys2Proof.Machine.execLd_D_indHL s
  | .ld_D_A => Sys2Proof.Machine.execLd_D_A s
  | .ld_E_B => Sys2Proof.Machine.execLd_E_B s
  | .ld_E_C => Sys2Proof.Machine.execLd_E_C s
  | .ld_E_D => Sys2Proof.Machine.execLd_E_D s
  | .ld_E_E => Sys2Proof.Machine.execLd_E_E s
  | .ld_E_H => Sys2Proof.Machine.execLd_E_H s
  | .ld_E_L => Sys2Proof.Machine.execLd_E_L s
  | .ld_E_indHL => Sys2Proof.Machine.execLd_E_indHL s
  | .ld_E_A => Sys2Proof.Machine.execLd_E_A s
  | .ld_H_B => Sys2Proof.Machine.execLd_H_B s
  | .ld_H_C => Sys2Proof.Machine.execLd_H_C s
  | .ld_H_D => Sys2Proof.Machine.execLd_H_D s
  | .ld_H_E => Sys2Proof.Machine.execLd_H_E s
  | .ld_H_H => Sys2Proof.Machine.execLd_H_H s
  | .ld_H_L => Sys2Proof.Machine.execLd_H_L s
  | .ld_H_indHL => Sys2Proof.Machine.execLd_H_indHL s
  | .ld_H_A => Sys2Proof.Machine.execLd_H_A s
  | .ld_L_B => Sys2Proof.Machine.execLd_L_B s
  | .ld_L_C => Sys2Proof.Machine.execLd_L_C s
  | .ld_L_D => Sys2Proof.Machine.execLd_L_D s
  | .ld_L_E => Sys2Proof.Machine.execLd_L_E s
  | .ld_L_H => Sys2Proof.Machine.execLd_L_H s
  | .ld_L_L => Sys2Proof.Machine.execLd_L_L s
  | .ld_L_indHL => Sys2Proof.Machine.execLd_L_indHL s
  | .ld_L_A => Sys2Proof.Machine.execLd_L_A s
  | .ld_indHL_B => Sys2Proof.Machine.execLd_indHL_B s
  | .ld_indHL_C => Sys2Proof.Machine.execLd_indHL_C s
  | .ld_indHL_D => Sys2Proof.Machine.execLd_indHL_D s
  | .ld_indHL_E => Sys2Proof.Machine.execLd_indHL_E s
  | .ld_indHL_H => Sys2Proof.Machine.execLd_indHL_H s
  | .ld_indHL_L => Sys2Proof.Machine.execLd_indHL_L s
  | .ld_indHL_A => Sys2Proof.Machine.execLd_indHL_A s
  | .ld_A_B => Sys2Proof.Machine.execLd_A_B s
  | .ld_A_C => Sys2Proof.Machine.execLd_A_C s
  | .ld_A_D => Sys2Proof.Machine.execLd_A_D s
  | .ld_A_E => Sys2Proof.Machine.execLd_A_E s
  | .ld_A_H => Sys2Proof.Machine.execLd_A_H s
  | .ld_A_L => Sys2Proof.Machine.execLd_A_L s
  | .ld_A_indHL => Sys2Proof.Machine.execLd_A_indHL s
  | .ld_A_A => Sys2Proof.Machine.execLd_A_A s
  -- Arithmetic
  | .add_A_B => Sys2Proof.Machine.execAdd_A_B s
  | .add_A_C => Sys2Proof.Machine.execAdd_A_C s
  | .add_A_D => Sys2Proof.Machine.execAdd_A_D s
  | .add_A_E => Sys2Proof.Machine.execAdd_A_E s
  | .add_A_H => Sys2Proof.Machine.execAdd_A_H s
  | .add_A_L => Sys2Proof.Machine.execAdd_A_L s
  | .add_A_indHL => Sys2Proof.Machine.execAdd_A_indHL s
  | .add_A_A => Sys2Proof.Machine.execAdd_A_A s
  | .adc_A_B => Sys2Proof.Machine.execAdc_A_B s
  | .adc_A_C => Sys2Proof.Machine.execAdc_A_C s
  | .adc_A_D => Sys2Proof.Machine.execAdc_A_D s
  | .adc_A_E => Sys2Proof.Machine.execAdc_A_E s
  | .adc_A_H => Sys2Proof.Machine.execAdc_A_H s
  | .adc_A_L => Sys2Proof.Machine.execAdc_A_L s
  | .adc_A_indHL => Sys2Proof.Machine.execAdc_A_indHL s
  | .adc_A_A => Sys2Proof.Machine.execAdc_A_A s
  | .sub_A_B => Sys2Proof.Machine.execSub_A_B s
  | .sub_A_C => Sys2Proof.Machine.execSub_A_C s
  | .sub_A_D => Sys2Proof.Machine.execSub_A_D s
  | .sub_A_E => Sys2Proof.Machine.execSub_A_E s
  | .sub_A_H => Sys2Proof.Machine.execSub_A_H s
  | .sub_A_L => Sys2Proof.Machine.execSub_A_L s
  | .sub_A_indHL => Sys2Proof.Machine.execSub_A_indHL s
  | .sub_A_A => Sys2Proof.Machine.execSub_A_A s
  | .sbc_A_B => Sys2Proof.Machine.execSbc_A_B s
  | .sbc_A_C => Sys2Proof.Machine.execSbc_A_C s
  | .sbc_A_D => Sys2Proof.Machine.execSbc_A_D s
  | .sbc_A_E => Sys2Proof.Machine.execSbc_A_E s
  | .sbc_A_H => Sys2Proof.Machine.execSbc_A_H s
  | .sbc_A_L => Sys2Proof.Machine.execSbc_A_L s
  | .sbc_A_indHL => Sys2Proof.Machine.execSbc_A_indHL s
  | .sbc_A_A => Sys2Proof.Machine.execSbc_A_A s
  | .add_A_d8 => Sys2Proof.Machine.execAdd_A_d8 s
  | .adc_A_d8 => Sys2Proof.Machine.execAdc_A_d8 s
  | .sub_A_d8 => Sys2Proof.Machine.execSub_A_d8 s
  | .sbc_A_d8 => Sys2Proof.Machine.execSbc_A_d8 s
  -- Stack
  | .ret_NZ => Sys2Proof.Machine.execRet_NZ s
  | .pop_BC => Sys2Proof.Machine.execPop_BC s
  | .call_NZ_a16 => Sys2Proof.Machine.execCall_NZ_a16 s
  | .push_BC => Sys2Proof.Machine.execPush_BC s
  | .ret_Z => Sys2Proof.Machine.execRet_Z s
  | .ret => Sys2Proof.Machine.execRet s
  | .call_Z_a16 => Sys2Proof.Machine.execCall_Z_a16 s
  | .call_a16 => Sys2Proof.Machine.execCall_a16 s
  | .ret_NC => Sys2Proof.Machine.execRet_NC s
  | .pop_DE => Sys2Proof.Machine.execPop_DE s
  | .call_NC_a16 => Sys2Proof.Machine.execCall_NC_a16 s
  | .push_DE => Sys2Proof.Machine.execPush_DE s
  | .ret_C => Sys2Proof.Machine.execRet_C s
  | .call_C_a16 => Sys2Proof.Machine.execCall_C_a16 s
  | .pop_HL => Sys2Proof.Machine.execPop_HL s
  | .push_HL => Sys2Proof.Machine.execPush_HL s
  | .pop_AF => Sys2Proof.Machine.execPop_AF s
  | .push_AF => Sys2Proof.Machine.execPush_AF s
  -- Jump
  | .jp_NZ_a16 => Sys2Proof.Machine.execJp_NZ_a16 s
  | .jp_a16 => Sys2Proof.Machine.execJp_a16 s
  | .jp_Z_a16 => Sys2Proof.Machine.execJp_Z_a16 s
  | .jp_NC_a16 => Sys2Proof.Machine.execJp_NC_a16 s
  | .jp_C_a16 => Sys2Proof.Machine.execJp_C_a16 s
  -- Prefixed
  | .swap_B => Sys2Proof.Machine.execSwap_B s
  | .swap_C => Sys2Proof.Machine.execSwap_C s
  | .swap_D => Sys2Proof.Machine.execSwap_D s
  | .swap_E => Sys2Proof.Machine.execSwap_E s
  | .swap_H => Sys2Proof.Machine.execSwap_H s
  | .swap_L => Sys2Proof.Machine.execSwap_L s
  | .swap_indHL => Sys2Proof.Machine.execSwap_indHL s
  | .swap_A => Sys2Proof.Machine.execSwap_A s

end Sys2Proof.Machine
end

