-- ==== Sys2Proof/Machine/Fetch.lean ====
section
/-! DEFINITION. Fetching and decoding the instruction at `pc` (R89, R202, R222), and placing an instruction's bytes where the
next fetch reads them. -/

namespace Sys2Proof.Machine

/-- One look-up in a decoder table (R88); a byte with no mapping raises `UnimplementedOpcode` (R221). -/
def decodeOrRaise (b : Byte) (page : Page) : Except Fault Instr :=
  match decodeByte b (page == .prefixed) with
  | some i => .ok i
  | none => .error (.unimplementedOpcode b page)

/-- The fetch and decode of R202. -/
def fetch (s : State) : Except Fault Instr := do
  let b0 ← memRead s s.pc
  if b0 = prefixEscape then do
    let b1 ← memRead s (s.pc + 1)
    decodeOrRaise b1 .prefixed
  else decodeOrRaise b0 .plain

/-- The state with a byte placed at an address; at an unmapped address there is nothing to place it in. -/
def placeByte (s : State) (addr : Word) (v : Byte) : State :=
  match memWrite s addr v with
  | .ok t => t
  | .error _ => s

/-- The state with bytes placed from an address up. -/
def placeBytes (s : State) (addr : Word) : List Byte → State
  | [] => s
  | v :: rest => placeBytes (placeByte s addr v) (addr + 1) rest

/-- The state with an instruction's bytes placed where the next step fetches, running (log 6). -/
def placeInstruction (s : State) (bytes : List Byte) : State :=
  (placeBytes s s.pc bytes).setHalted false

end Sys2Proof.Machine
end

