-- ==== Sys2Proof/Machine/Step.lean ====
section
/-! DEFINITION. The step function (R202). -/

namespace Sys2Proof.Machine

/-- One call of `step()` (R202): a halted machine does nothing (R203); otherwise fetch, decode and execute. `exec` writes
the successor `pc`. An error commits nothing (R226). -/
def step (s : State) : Host.Outcome State Fault Refusal :=
  if s.halted then .next s
  else
    match fetch s with
    | .error f => .fault f
    | .ok i => exec i s

/-- `s` with the instruction whose bits are `w` stored where `step` fetches next (log 6). -/
def State.withFetchWord (s : State) (nbits w : Nat) : State :=
  placeInstruction s (tableWordBytes nbits w)

end Sys2Proof.Machine
end

