-- ==== Sys2Proof/Machine/Construct.lean ====
section
/-! DEFINITION. Construction, which is the block's only reset (R250 to R255), and the host's other moves on a state between
steps: ending boot mode (R264) and reading video RAM (R268). -/

namespace Sys2Proof.Machine

/-- The cells of an array that holds these bytes from offset `k` up, in canonical form. -/
def cellsFrom : Nat → List Byte → List Host.Cell
  | _, [] => []
  | k, v :: rest => if v = unlistedByte then cellsFrom (k + 1) rest else (k, v) :: cellsFrom (k + 1) rest

/-- R251: a boot image is absent or exactly 256 bytes. -/
def bootImageOk : Option (List Byte) → Bool
  | none => true
  | some img => img.length == bootImageSize

/-- The memory after construction: R253 for the ROM banks, R40 for the rest. Cartridge bytes from 0x8000 up have no
effect (D10). -/
def imageMemory (boot : Option (List Byte)) (cart : List Byte) : Memory :=
  { emptyMemory with
    boot := cellsFrom 0 (boot.getD [])
    rom0 := cellsFrom 0 (cart.take romBankSize)
    romN := cellsFrom 0 ((cart.drop romBankSize).take romBankSize) }

/-- `construct(boot, cart)` of R250, with the parameters of R7. R251 and R252: an image of the wrong size is a
`ConfigurationError`, and nothing is constructed (R254). -/
def construct (p : Params) (boot : Option (List Byte)) (cart : List Byte) : Outcome :=
  if bootImageOk boot && decide (minCartSize ≤ cart.length) then
    .next { State.reset with bootActive := boot.isSome, mem := imageMemory boot cart, params := p }
  else .fault .configurationError

/-- `disable_boot` of R264. -/
def disableBoot (s : State) : State :=
  s.setBootActive false

/-- The rendering collaborator's read of video RAM (R60, R268): the bus byte at an address of 0x8000 to 0x9FFF. Outside
that window it has no read to make. -/
def readVideo (s : State) (addr : Word) : Option Byte :=
  if 0x8000 ≤ addr.toNat ∧ addr.toNat ≤ 0x9FFF then (memRead s addr).toOption else none

end Sys2Proof.Machine
end

