-- ==== Sys2Proof/Machine/Driver.lean ====
section
/-! DEFINITION. The driver loop's side of the interface (R262): a session is the machine it owns and the error, if any, that
ended it (R228). Every move happens between steps (R263, R267). -/

namespace Sys2Proof.Machine

/-- Why a session can take no further step. -/
inductive Stop where
  | error (f : Fault)
  | refusal (r : Refusal)
deriving DecidableEq, Repr

/-- A constructed machine with the recorded error (R228, R262). -/
structure Session where
  machine : State
  stopped : Option Stop
deriving DecidableEq, Repr

/-- The moves of R262 on a constructed machine. Reading video RAM changes nothing, so it is `readVideo` on the machine. -/
inductive Move where
  | step
  | disableBoot
  | reset (boot : Option (List Byte)) (cart : List Byte)
deriving DecidableEq, Repr

/-- The session one call of `step()` leaves: after an error the machine is the one before the call (R226), and the driver
takes no further step (R228, log 7). -/
def callStep (x : Session) : Session :=
  match x.stopped with
  | some _ => x
  | none =>
    match step x.machine with
    | .next t => { x with machine := t }
    | .fault f => { x with stopped := some (.error f) }
    | .refused r => { x with stopped := some (.refusal r) }

/-- A reset is a new construction (R255); one that fails constructs nothing (R254). -/
def callReset (x : Session) (boot : Option (List Byte)) (cart : List Byte) : Option Session :=
  match construct x.machine.params boot cart with
  | .next t => some ⟨t, none⟩
  | _ => none

/-- One move of the host (R262). -/
def makeMove (x : Session) : Move → Option Session
  | .step => some (callStep x)
  | .disableBoot => some { x with machine := disableBoot x.machine }
  | .reset boot cart => callReset x boot cart

end Sys2Proof.Machine
end

