-- ==== Sys2Proof/Safety.lean ====
section
/-! DEFINITION. What counts as a good state and a safe run, in the terms the claims use. -/

namespace Sys2Proof.Safety

open Sys2Proof.Machine

/-- An access to `addr` finds a byte (R53). -/
def mapped (s : State) (addr : Word) : Bool :=
  (route addr s.bootActive).isSome

/-- Two addresses name the same byte of storage, by being equal or through the echo alias (R54). -/
def sameByte (s : State) (x y : Word) : Bool :=
  route x s.bootActive == route y s.bootActive

/-- The invariant of the model: the memory has its canonical form. -/
def MemoryCanonical (s : State) : Prop :=
  s.mem.wf = true

/-- Where a run of at most `k` steps ends (R265): at the first halted state, at the first error, or not within `k` steps,
which a hang never does (R266). -/
inductive RunEnd where
  | halted (s : State)
  | failed (s : State) (f : Fault)
  | refused (s : State) (r : Refusal)
  | noEnd (s : State)
deriving DecidableEq, Repr

/-- The run of R265, cut off after `k` steps. -/
def runFor : Nat → State → RunEnd
  | k, s =>
    if s.halted then .halted s
    else
      match k with
      | 0 => .noEnd s
      | k + 1 =>
        match step s with
        | .next t => runFor k t
        | .fault f => .failed s f
        | .refused r => .refused s r

/-! ### Terms of the claims -/

/-- These bytes stand in memory from `addr` up. -/
def bytesAt (s : State) (addr : Word) : List Byte → Prop
  | [] => True
  | v :: rest => memRead s addr = .ok v ∧ bytesAt s (addr + 1) rest

/-- `m` is the memory of `s` after storing these bytes at these addresses and nothing else: each address reads the byte
stored there, every address outside the stored bytes reads as before, and so does every cell of the backing arrays,
those no address reaches at present among them. -/
def storesOnly (s : State) (m : Memory) (stores : List (Word × Byte)) : Prop :=
  (∀ p ∈ stores, memRead { s with mem := m } p.1 = .ok p.2) ∧
    (∀ x, (∀ p ∈ stores, sameByte s p.1 x = false) → memRead { s with mem := m } x = memRead s x) ∧
    ∀ arr off, (∀ p ∈ stores, route p.1 s.bootActive ≠ some (arr, off)) → m.read arr off = s.mem.read arr off

/-- The state R101 gives after adding `v` to `A`, with `len` added to `pc`. -/
def afterAdd (s : State) (v : Byte) (len : Word) : State :=
  { s with
    a := s.a + v
    flags :=
      { z := s.a + v == 0
        n := false
        h :=
          match s.params.hcMode with
          | .preOperand => decide (s.a.toNat % 16 + v.toNat % 16 > 0xF)
          | .postResult => decide ((s.a + v).toNat % 16 + v.toNat % 16 > 0xF)
        c := decide (s.a.toNat + v.toNat > 0xFF) }
    pc := s.pc + len }

/-- The state R102 gives after subtracting `v` from `A`, with `len` added to `pc`. -/
def afterSub (s : State) (v : Byte) (len : Word) : State :=
  { s with
    a := s.a - v
    flags :=
      { z := s.a - v == 0
        n := true
        h :=
          match s.params.hcMode with
          | .preOperand => decide (s.a.toNat % 16 < v.toNat % 16)
          | .postResult => decide ((s.a - v).toNat % 16 < v.toNat % 16)
        c := decide (s.a < v) }
    pc := s.pc + len }

/-- `Fold(v)` of R103, modulo 256. -/
def folded (s : State) (v : Byte) : Byte :=
  match s.params.carryFold, s.flags.c with
  | .inverted, false => v + 1
  | .inverted, true => v
  | .conventional, false => v
  | .conventional, true => v + 1

/-- The nibble exchange of R191. -/
def nibblesExchanged (v : Byte) : Byte :=
  (v <<< 4) ||| (v >>> 4)

/-- The flags R192 gives after SWAP with this result. -/
def swapFlagsOf (s : State) (res : Byte) : Flags :=
  match s.params.swapFlags with
  | .conventional => { z := res == 0, n := false, h := false, c := false }
  | .preserve => s.flags

/-- The registers the table of R26 lets each variant write. -/
def mayWriteReg : Form → Reg8 → Bool
  | .alu _ _, r => r == .A
  | .ld8 (.reg d) _, r => r == d
  | .ld16 .BC, r => r == .B || r == .C
  | .ld16 .DE, r => r == .D || r == .E
  | .ld16 .HL, r => r == .H || r == .L
  | .pop .BC, r => r == .B || r == .C
  | .pop .DE, r => r == .D || r == .E
  | .pop .HL, r => r == .H || r == .L
  | .pop .AF, r => r == .A
  | .swap (.reg d), r => r == d
  | _, _ => false

/-- The writers of the flags (R30). -/
def mayWriteFlags (s : State) : Form → Bool
  | .alu _ _ => true
  | .pop .AF => true
  | .swap _ => s.params.swapFlags == .conventional
  | _ => false

/-- The writers of `sp` (R26, R34): LD SP,d16, PUSH, POP, and CALL and RET when taken. -/
def mayWriteSp (s : State) : Form → Bool
  | .ld16 .SP => true
  | .push _ => true
  | .pop _ => true
  | .call cc => holds s.flags cc
  | .ret cc => holds s.flags cc
  | _ => false

/-- The writers of memory (R65): the forms with a `(HL)` destination, PUSH, and CALL when taken. -/
def mayWriteMem (s : State) : Form → Bool
  | .ld8 .indHL _ => true
  | .push _ => true
  | .call cc => holds s.flags cc
  | .swap .indHL => true
  | _ => false

/-- The branches, which replace the default successor `pc` when taken (R205). -/
def isBranch : Form → Bool
  | .jp _ => true
  | .call _ => true
  | .ret _ => true
  | _ => false

/-- Two memories that agree everywhere but in ROM bank 0 below 0x0100, the bytes the boot overlay hides (R52). -/
def agreeOutsideHidden (m m' : Memory) : Prop :=
  ∀ arr off, ¬(arr = .rom0 ∧ off ≤ 0x00FF) → m.read arr off = m'.read arr off

/-- Two states that differ at most in the bytes the boot overlay hides. -/
def sameButHidden (s s' : State) : Prop :=
  s' = { s with mem := s'.mem } ∧ agreeOutsideHidden s.mem s'.mem

/-- Two outcomes that agree: successors that differ at most in the hidden bytes, or the same error. -/
def outcomesAgree : Outcome → Outcome → Prop
  | .next t, .next t' => sameButHidden t t'
  | .fault f, .fault f' => f = f'
  | _, _ => False

end Sys2Proof.Safety
end

