-- ==== Sys2Proof/Certificates/Slice0/Obligations.lean ====
section
/-! DEFINITION. The statements for the provers. Each docstring names the rules it formalises. A statement over a family
speaks of every constructor whose form has the named selectors; its docstring lists them. -/

open Sys2Proof Sys2Proof.Machine Sys2Proof.Safety

/-! ### Reset and construction -/

/-- R40 for the construction `State.reset` stands for: no boot image and a cartridge of zeros (the model's choice, log
2); the default parameters are the model's choice too (log 1). -/
def Obligations.ResetStateValues : Prop :=
  (∀ r, readReg State.reset r = 0) ∧
    State.reset.flags = ⟨false, false, false, false⟩ ∧
    readPair State.reset .AF = 0 ∧
    State.reset.pc = 0x0000 ∧ State.reset.sp = 0x0000 ∧
    State.reset.halted = false ∧ State.reset.bootActive = false ∧
    (∀ arr off, State.reset.mem.read arr off = 0) ∧
    State.reset.params = ⟨.preOperand, .inverted, .conventional⟩

/-- The reset memory is in canonical form (the model's invariant, log 8). -/
def Obligations.ResetMemoryIsCanonical : Prop :=
  MemoryCanonical State.reset

/-- R40, R250, R253, R256: with images of the right sizes construction succeeds, places the images, zeroes everything
else and starts running at 0; cartridge bytes from 0x8000 up have no effect. `pc`, `sp`, `boot_active` and the ignored
bytes are the spec's own decisions D8, D9 and D10. -/
def Obligations.ConstructPlacesImages : Prop :=
  ∀ (p : Params) (boot : Option (List Byte)) (cart : List Byte),
    (∀ img, boot = some img → img.length = 256) → 32768 ≤ cart.length →
      construct p boot cart = construct p boot (cart.take 32768) ∧
      ∃ t, construct p boot cart = .next t ∧
        (∀ r, readReg t r = 0) ∧ t.flags = ⟨false, false, false, false⟩ ∧
        t.pc = 0x0000 ∧ t.sp = 0x0000 ∧ t.halted = false ∧ t.bootActive = boot.isSome ∧ t.params = p ∧
        (∀ k, k < 0x4000 → t.mem.read .rom0 k = cart.getD k 0 ∧ t.mem.read .romN k = cart.getD (0x4000 + k) 0) ∧
        (∀ img k, boot = some img → k < 256 → t.mem.read .boot k = img.getD k 0) ∧
        (∀ k, boot = none → t.mem.read .boot k = 0) ∧
        (∀ k, t.mem.read .vram k = 0 ∧ t.mem.read .eram k = 0 ∧ t.mem.read .wram k = 0 ∧ t.mem.read .hram k = 0)

/-- R225, R252: construction fails, with `ConfigurationError` and nothing else, exactly when the boot image is not 256
bytes or the cartridge is shorter than 32 KiB. -/
def Obligations.ConstructRejectsWrongSizes : Prop :=
  ∀ (p : Params) (boot : Option (List Byte)) (cart : List Byte),
    ∀ f, construct p boot cart = .fault f ↔
      f = .configurationError ∧ ((∃ img, boot = some img ∧ img.length ≠ 256) ∨ cart.length < 32768)

/-! ### Encoding -/

/-- Decoding the encoding of any instruction, with any bytes after its operation byte, gives it back with those bytes
left over (R80, R81 to R85 against R91 and R93). -/
def Obligations.DecodeOfEncodeIsIdentity : Prop :=
  ∀ (i : Instr) (operands : List Byte), i.wellFormed = true →
    decode (encodeWith i operands) = .ok (i, operands)

/-- Every accepted sequence of bytes is the encoding of the instruction it decodes to, so no instruction has a second
encoding and no unmapped byte falls through to a neighbour (R91 to R94). -/
def Obligations.AcceptedBytesAreTheEncoding : Prop :=
  ∀ (bs : List Byte) (i : Instr) (rest : List Byte), decode bs = .ok (i, rest) → bs = encode i ++ rest

/-- R81 to R85, R91, R93: the opcode bytes of every form, from the fields of its operands. The byte values are the
spec's own decision D1 (log 3), the escape 0xCB and NOP's 0x00 apart. -/
def Obligations.OpcodesOfTheForms : Prop :=
  ∀ i : Instr,
    (∀ r, i.form = .alu .add (.reg r) → encode i = [0x80 + regCode r]) ∧
    (∀ r, i.form = .alu .adc (.reg r) → encode i = [0x88 + regCode r]) ∧
    (∀ r, i.form = .alu .sub (.reg r) → encode i = [0x90 + regCode r]) ∧
    (∀ r, i.form = .alu .sbc (.reg r) → encode i = [0x98 + regCode r]) ∧
    (∀ d r, i.form = .ld8 (.reg d) (.reg r) → encode i = [0x40 + 8 * regCode d + regCode r]) ∧
    (∀ d, i.form = .ld8 (.reg d) .indHL → encode i = [0x46 + 8 * regCode d]) ∧
    (∀ r, i.form = .ld8 .indHL (.reg r) → encode i = [0x70 + regCode r]) ∧
    (∀ d, i.form = .ld8 (.reg d) .imm8 → encode i = [0x06 + 8 * regCode d]) ∧
    (∀ dst, i.form = .ld16 dst → encode i = [0x01 + 16 * dst16Code dst]) ∧
    (∀ p, i.form = .push p → encode i = [0xC5 + 16 * pairCode p]) ∧
    (∀ p, i.form = .pop p → encode i = [0xC1 + 16 * pairCode p]) ∧
    (∀ r, i.form = .swap (.reg r) → encode i = [0xCB, 0x30 + regCode r]) ∧
    (encode .add_A_indHL = [0x86] ∧ encode .adc_A_indHL = [0x8E] ∧ encode .sub_A_indHL = [0x96] ∧
      encode .sbc_A_indHL = [0x9E]) ∧
    (encode .add_A_d8 = [0xC6] ∧ encode .adc_A_d8 = [0xCE] ∧ encode .sub_A_d8 = [0xD6] ∧ encode .sbc_A_d8 = [0xDE]) ∧
    (encode .ld_indHL_d8 = [0x36] ∧ encode .swap_indHL = [0xCB, 0x36] ∧ encode .nop = [0x00] ∧ encode .halt = [0x76]) ∧
    (encode .jp_a16 = [0xC3] ∧ encode .jp_NZ_a16 = [0xC2] ∧ encode .jp_Z_a16 = [0xCA] ∧ encode .jp_NC_a16 = [0xD2] ∧
      encode .jp_C_a16 = [0xDA]) ∧
    (encode .call_a16 = [0xCD] ∧ encode .call_NZ_a16 = [0xC4] ∧ encode .call_Z_a16 = [0xCC] ∧
      encode .call_NC_a16 = [0xD4] ∧ encode .call_C_a16 = [0xDC]) ∧
    encode .ret = [0xC9] ∧ encode .ret_NZ = [0xC0] ∧ encode .ret_Z = [0xC8] ∧ encode .ret_NC = [0xD0] ∧
      encode .ret_C = [0xD8]

/-- R92, R93: the bytes with no mapping, the spec's own decisions D1 to D3 (log 3). Of the plain page, exactly the listed ones
and the escape; of the prefixed page, all but 0x30 to 0x37. Executing one raises `UnimplementedOpcode` with the byte and
its page. -/
def Obligations.UnmappedBytesAreRejected : Prop :=
  let unmapped : List Byte :=
    [0x02, 0x03, 0x04, 0x05, 0x07, 0x08, 0x09, 0x0A, 0x0B, 0x0C, 0x0D, 0x0F, 0x10, 0x12] ++
    [0x13, 0x14, 0x15, 0x17, 0x18, 0x19, 0x1A, 0x1B, 0x1C, 0x1D, 0x1F, 0x20, 0x22, 0x23, 0x24, 0x25] ++
    [0x27, 0x28, 0x29, 0x2A, 0x2B, 0x2C, 0x2D, 0x2F, 0x30, 0x32, 0x33, 0x34, 0x35, 0x37, 0x38, 0x39] ++
    [0x3A, 0x3B, 0x3C, 0x3D, 0x3F] ++
    [0xA0, 0xA1, 0xA2, 0xA3, 0xA4, 0xA5, 0xA6, 0xA7, 0xA8, 0xA9, 0xAA, 0xAB, 0xAC, 0xAD, 0xAE, 0xAF] ++
    [0xB0, 0xB1, 0xB2, 0xB3, 0xB4, 0xB5, 0xB6, 0xB7, 0xB8, 0xB9, 0xBA, 0xBB, 0xBC, 0xBD, 0xBE, 0xBF] ++
    [0xC7, 0xCF, 0xD3, 0xD7, 0xD9, 0xDB, 0xDD, 0xDF, 0xE0, 0xE2, 0xE3, 0xE4, 0xE6, 0xE7, 0xE8, 0xE9] ++
    [0xEA, 0xEB, 0xEC, 0xED, 0xEE, 0xEF, 0xF0, 0xF2, 0xF3, 0xF4, 0xF6, 0xF7, 0xF8, 0xF9, 0xFA, 0xFB] ++
    [0xFC, 0xFD, 0xFE, 0xFF]
  unmapped.length = 119 ∧
    (∀ b, decodeByte b false = none ↔ b ∈ unmapped ∨ b = 0xCB) ∧
    (∀ b, decodeByte b true = none ↔ ¬(0x30 ≤ b ∧ b ≤ 0x37)) ∧
    (∀ s b, s.halted = false → memRead s s.pc = .ok b → b ∈ unmapped →
      step s = .fault (.unimplementedOpcode b .plain)) ∧
    ∀ s b, s.halted = false → memRead s s.pc = .ok 0xCB → memRead s (s.pc + 1) = .ok b →
      ¬(0x30 ≤ b ∧ b ≤ 0x37) → step s = .fault (.unimplementedOpcode b .prefixed)

/-- Words written out from R81 to R93 decode to the instruction they stand for, one or more per family. The byte values
are the spec's own decision D1 (log 3), NOP's 0x00 and the escape 0xCB apart. -/
def Obligations.SampleWordsDecode : Prop :=
  decode [0x00] = .ok (.nop, []) ∧
    decode [0b01110110] = .ok (.halt, []) ∧
    decode [0b01000111] = .ok (.ld_B_A, []) ∧
    decode [0b01111110] = .ok (.ld_A_indHL, []) ∧
    decode [0b00110110, 0xAB] = .ok (.ld_indHL_d8, [0xAB]) ∧
    decode [0b00100001, 0x34, 0x12] = .ok (.ld_HL_d16, [0x34, 0x12]) ∧
    decode [0b00110001, 0xFF, 0xDF] = .ok (.ld_SP_d16, [0xFF, 0xDF]) ∧
    decode [0b10001000] = .ok (.adc_A_B, []) ∧
    decode [0b11010110, 0x01] = .ok (.sub_A_d8, [0x01]) ∧
    decode [0b11110101] = .ok (.push_AF, []) ∧
    decode [0b11010001] = .ok (.pop_DE, []) ∧
    decode [0b11010100, 0x00, 0x03] = .ok (.call_NC_a16, [0x00, 0x03]) ∧
    decode [0b11001000] = .ok (.ret_Z, []) ∧
    decode [0b11000011, 0x34, 0x12] = .ok (.jp_a16, [0x34, 0x12]) ∧
    decode [0xCB, 0b00110111] = .ok (.swap_A, []) ∧
    decode [0xCB, 0xCB] = .error (.unmapped 0xCB .prefixed) ∧
    decode [0x3C] = .error (.unmapped 0x3C .plain)

/-! ### The step -/

/-- R202: when the bytes at `pc` decode to an instruction, a step of a running machine is that instruction's execution
on the state as it stands; `pc` is not advanced by the fetch (R32). -/
def Obligations.StepRunsDecodedInstruction : Prop :=
  ∀ (s : State) (bs : List Byte) (i : Instr) (rest : List Byte),
    s.halted = false → bytesAt s s.pc bs → decode bs = .ok (i, rest) → i.wellFormed = true ∧ step s = exec i s

/-- R203: a halted step changes nothing and cannot fail, whatever stands at `pc`. -/
def Obligations.HaltedStepDoesNothing : Prop :=
  ∀ s : State, s.halted = true → step s = .next s

/-- R222, R227 (1) to (3): the errors of fetch and decode, in their order. -/
def Obligations.FetchErrorsInOrder : Prop :=
  ∀ s : State, s.halted = false →
    (mapped s s.pc = false → step s = .fault (.addressOutOfRange s.pc)) ∧
    (memRead s s.pc = .ok 0xCB → mapped s (s.pc + 1) = false → step s = .fault (.addressOutOfRange (s.pc + 1))) ∧
    (∀ b, memRead s s.pc = .ok b → b ≠ 0xCB → decodeByte b false = none →
      step s = .fault (.unimplementedOpcode b .plain)) ∧
    ∀ b, memRead s s.pc = .ok 0xCB → memRead s (s.pc + 1) = .ok b → decodeByte b true = none →
      step s = .fault (.unimplementedOpcode b .prefixed)

/-- R220, R221, R223, R224: a step is never refused, and the only errors it returns are an address error, whose address
no region covers, and an opcode error, whose byte has no mapping in its page. -/
def Obligations.StepErrorsAreAddressOrOpcode : Prop :=
  ∀ s : State,
    (∀ r, step s ≠ .refused r) ∧
    ∀ f, step s = .fault f →
      (∃ x : Word, f = .addressOutOfRange x ∧ ((0xFE00 ≤ x ∧ x ≤ 0xFF7F) ∨ x = 0xFFFF)) ∨
        ∃ b page, f = .unimplementedOpcode b page ∧ decodeByte b (page == .prefixed) = none

/-! ### The bus -/

/-- R51, R53: where each address of each region is kept, the boot overlay first while it is active, and where none is.
-/
def Obligations.RegionTableRoutes : Prop :=
  ∀ (x : Word) (ba : Bool),
    (ba = true → x ≤ 0x00FF → route x ba = some (.boot, x.toNat)) ∧
    ((ba = false ∨ 0x0100 ≤ x) → x ≤ 0x3FFF → route x ba = some (.rom0, x.toNat)) ∧
    (0x4000 ≤ x → x ≤ 0x7FFF → route x ba = some (.romN, x.toNat - 0x4000)) ∧
    (0x8000 ≤ x → x ≤ 0x9FFF → route x ba = some (.vram, x.toNat - 0x8000)) ∧
    (0xA000 ≤ x → x ≤ 0xBFFF → route x ba = some (.eram, x.toNat - 0xA000)) ∧
    (0xC000 ≤ x → x ≤ 0xDFFF → route x ba = some (.wram, x.toNat - 0xC000)) ∧
    (0xE000 ≤ x → x ≤ 0xFDFF → route x ba = some (.wram, x.toNat - 0xE000)) ∧
    (0xFF80 ≤ x → x ≤ 0xFFFE → route x ba = some (.hram, x.toNat - 0xFF80)) ∧
    ((0xFE00 ≤ x ∧ x ≤ 0xFF7F) ∨ x = 0xFFFF → route x ba = none)

/-- R55, R58, R59: a read or a write fails exactly at the unmapped addresses 0xFE00 to 0xFF7F and 0xFFFF, with
`AddressOutOfRange` of that address. -/
def Obligations.AccessFailsExactlyWhereUnmapped : Prop :=
  ∀ (s : State) (x : Word) (v : Byte),
    (∀ f, memRead s x = .error f ↔ f = .addressOutOfRange x ∧ ((0xFE00 ≤ x ∧ x ≤ 0xFF7F) ∨ x = 0xFFFF)) ∧
    ∀ f, memWrite s x v = .error f ↔ f = .addressOutOfRange x ∧ ((0xFE00 ≤ x ∧ x ≤ 0xFF7F) ∨ x = 0xFFFF)

/-- R54: an address of 0xC000 to 0xDDFF and the one 0x2000 above it are the same byte for reads and writes, and two
different mapped addresses name the same byte in no other way. -/
def Obligations.EchoRamAliasesWorkingRam : Prop :=
  ∀ (s : State) (x y : Word) (v : Byte),
    (0xC000 ≤ x → x ≤ 0xDDFF →
      memRead s (x + 0x2000) = memRead s x ∧ memWrite s (x + 0x2000) v = memWrite s x v) ∧
    (mapped s x = true → sameByte s x y = true →
      x = y ∨ (0xC000 ≤ x ∧ x ≤ 0xDDFF ∧ y = x + 0x2000) ∨ (0xC000 ≤ y ∧ y ≤ 0xDDFF ∧ x = y + 0x2000))

/-- R59, R67: in every region, ROM and boot overlay included (the spec's decision D21), a write at a mapped address
succeeds, is read back from every address of that byte, and changes no other byte and nothing else; elsewhere it fails.
-/
def Obligations.WriteIsReadBackAndNothingElseChanges : Prop :=
  ∀ (s : State) (x : Word) (v : Byte),
    (MemoryCanonical s → mapped s x = true →
      ∃ m, memWrite s x v = .ok { s with mem := m } ∧ storesOnly s m [(x, v)] ∧
        ∀ y, sameByte s x y = true → memRead { s with mem := m } y = .ok v) ∧
    (mapped s x = false → memWrite s x v = .error (.addressOutOfRange x))

/-- R60, R268: in video RAM the rendering collaborator sees exactly the byte the bus holds, the byte last written there.
-/
def Obligations.VideoReadIsTheBusByte : Prop :=
  ∀ (s : State) (x : Word) (v : Byte), 0x8000 ≤ x → x ≤ 0x9FFF →
    (readVideo s x = some v ↔ memRead s x = .ok v) ∧
    (MemoryCanonical s → ∃ t, memWrite s x v = .ok t ∧ readVideo t x = some v)

/-- R52, R264 (`disable_boot` is the spec's decision D9): while boot mode is active 0x0000 to 0x00FF read the boot
image; after `disable_boot` they read ROM bank 0; no other address and no other state changes, and a second
`disable_boot` has no effect. -/
def Obligations.DisableBootUncoversRomBank0 : Prop :=
  ∀ (s : State) (x : Word),
    (x ≤ 0x00FF → s.bootActive = true → memRead s x = .ok (s.mem.read .boot x.toNat)) ∧
    (x ≤ 0x00FF → memRead (disableBoot s) x = .ok (s.mem.read .rom0 x.toNat)) ∧
    (0x0100 ≤ x → memRead (disableBoot s) x = memRead s x) ∧
    disableBoot s = { s with bootActive := false } ∧
    (s.bootActive = false → disableBoot s = s)

/-! ### Registers, pairs, flags, conditions -/

/-- R21, R22: a register write stores the byte and changes no other cell, no flag, `pc`, `sp`, control bit or memory. -/
def Obligations.RegisterWriteChangesOneCell : Prop :=
  ∀ (s : State) (r : Reg8) (v : Byte),
    readReg (s.setReg r v) r = v ∧
    (∀ r', r' ≠ r → readReg (s.setReg r v) r' = readReg s r') ∧
    ∃ a b c d e h l, s.setReg r v = { s with a := a, b := b, c := c, d := d, e := e, h := h, l := l }

/-- R23, R28: the paired views, the first-named register the high byte, and F as `Fenc()`. -/
def Obligations.PairViewsAreConcatenations : Prop :=
  ∀ s : State,
    readPair s .BC = s.b ++ s.c ∧ readPair s .DE = s.d ++ s.e ∧ readPair s .HL = s.h ++ s.l ∧
    readPair s .AF = s.a ++ encodeFlags s.flags ∧
    encodeFlags s.flags = BitVec.ofBool s.flags.z ++ BitVec.ofBool s.flags.n ++ BitVec.ofBool s.flags.h ++
      BitVec.ofBool s.flags.c ++ (0 : BitVec 4)

/-- R24, R25: a pair write then a read of the pair gives the value back, for AF without its low nibble; the other pairs
read as before. -/
def Obligations.PairWriteRoundTrip : Prop :=
  ∀ (s : State) (v : Word),
    (∀ p, p ≠ .AF → readPair (s.setPair p v) p = v) ∧
    readPair (s.setPair .AF v) .AF = v &&& 0xFFF0 ∧
    ∀ p q, p ≠ q → readPair (s.setPair p v) q = readPair s q

/-- R29: the laws of the flag codec. -/
def Obligations.FlagCodecLaws : Prop :=
  (∀ b, encodeFlags (decodeFlags b) = b &&& 0xF0) ∧ ∀ f, decodeFlags (encodeFlags f) = f

/-- R31: the five conditions. -/
def Obligations.ConditionCodeValues : Prop :=
  ∀ f : Flags,
    holds f .always = true ∧ holds f .Z = f.z ∧ holds f .NZ = !f.z ∧ holds f .C = f.c ∧ holds f .NC = !f.c

/-! ### Arithmetic -/

/-- R104, R105, R106, with the sum core of R101: `add_A_B`, `add_A_C`, `add_A_D`, `add_A_E`, `add_A_H`, `add_A_L`,
`add_A_A`; `add_A_indHL`; `add_A_d8`. The two formulas for H are the spec's own (decision D4, C5, N22; log 11 for
`post_result`). -/
def Obligations.AddResult : Prop :=
  ∀ s : State,
    (∀ i r, i.form = .alu .add (.reg r) → exec i s = .next (afterAdd s (readReg s r) 1)) ∧
    ((∀ v, memRead s (readPair s .HL) = .ok v → exec .add_A_indHL s = .next (afterAdd s v 1)) ∧
      (mapped s (readPair s .HL) = false → exec .add_A_indHL s = .fault (.addressOutOfRange (readPair s .HL)))) ∧
    ((∀ v, memRead s (s.pc + 1) = .ok v → exec .add_A_d8 s = .next (afterAdd s v 2)) ∧
      (mapped s (s.pc + 1) = false → exec .add_A_d8 s = .fault (.addressOutOfRange (s.pc + 1))))

/-- R107, R108, R109, with the fold of R103, whose wrap is the spec's decision D6 (R7: the polarity is a parameter):
`adc_A_B`, `adc_A_C`, `adc_A_D`, `adc_A_E`, `adc_A_H`, `adc_A_L`, `adc_A_A`; `adc_A_indHL`; `adc_A_d8`. The two formulas
for H are the spec's own (decision D4, C5, N22; log 11 for `post_result`). -/
def Obligations.AdcResult : Prop :=
  ∀ s : State,
    (∀ i r, i.form = .alu .adc (.reg r) → exec i s = .next (afterAdd s (folded s (readReg s r)) 1)) ∧
    ((∀ v, memRead s (readPair s .HL) = .ok v → exec .adc_A_indHL s = .next (afterAdd s (folded s v) 1)) ∧
      (mapped s (readPair s .HL) = false → exec .adc_A_indHL s = .fault (.addressOutOfRange (readPair s .HL)))) ∧
    ((∀ v, memRead s (s.pc + 1) = .ok v → exec .adc_A_d8 s = .next (afterAdd s (folded s v) 2)) ∧
      (mapped s (s.pc + 1) = false → exec .adc_A_d8 s = .fault (.addressOutOfRange (s.pc + 1))))

/-- R110, R111, R112, with the difference core of R102: `sub_A_B`, `sub_A_C`, `sub_A_D`, `sub_A_E`, `sub_A_H`, `sub_A_L`,
`sub_A_A`; `sub_A_indHL`; `sub_A_d8`. That N is set and C is the borrow is the spec's own inference (R102, "derived: from
rule R101 and the sentence quoted", N6); the two formulas for H are its own too (decision D4, C5, N22; log 11 for
`post_result`). -/
def Obligations.SubResult : Prop :=
  ∀ s : State,
    (∀ i r, i.form = .alu .sub (.reg r) → exec i s = .next (afterSub s (readReg s r) 1)) ∧
    ((∀ v, memRead s (readPair s .HL) = .ok v → exec .sub_A_indHL s = .next (afterSub s v 1)) ∧
      (mapped s (readPair s .HL) = false → exec .sub_A_indHL s = .fault (.addressOutOfRange (readPair s .HL)))) ∧
    ((∀ v, memRead s (s.pc + 1) = .ok v → exec .sub_A_d8 s = .next (afterSub s v 2)) ∧
      (mapped s (s.pc + 1) = false → exec .sub_A_d8 s = .fault (.addressOutOfRange (s.pc + 1))))

/-- R113, R114, R115, with the fold of R103, whose wrap is the spec's decision D6: `sbc_A_B`, `sbc_A_C`, `sbc_A_D`,
`sbc_A_E`, `sbc_A_H`, `sbc_A_L`, `sbc_A_A`; `sbc_A_indHL`; `sbc_A_d8`. That N is set and C is the borrow is the spec's
own inference (R102, N6); the two formulas for H are its own too (decision D4, C5, N22; log 11 for `post_result`). -/
def Obligations.SbcResult : Prop :=
  ∀ s : State,
    (∀ i r, i.form = .alu .sbc (.reg r) → exec i s = .next (afterSub s (folded s (readReg s r)) 1)) ∧
    ((∀ v, memRead s (readPair s .HL) = .ok v → exec .sbc_A_indHL s = .next (afterSub s (folded s v) 1)) ∧
      (mapped s (readPair s .HL) = false → exec .sbc_A_indHL s = .fault (.addressOutOfRange (readPair s .HL)))) ∧
    ((∀ v, memRead s (s.pc + 1) = .ok v → exec .sbc_A_d8 s = .next (afterSub s (folded s v) 2)) ∧
      (mapped s (s.pc + 1) = false → exec .sbc_A_d8 s = .fault (.addressOutOfRange (s.pc + 1))))

/-- R117: a folded operand is `v + fold`, except that 0xFF folded with 1 is 0x00, which leaves `A` and clears the carry
and, under `pre_operand`, the half carry, where a three-operand sum would carry. The wrap is the spec's decision D6, the
`pre_operand` formula its decision D4, and SUB's C as the borrow its own inference (R102, N6). -/
def Obligations.FoldedOperandWrapsWithoutCarry : Prop :=
  ∀ (hc : HcMode) (mode : CarryFold) (c : Bool) (a v : Byte),
    (¬(v = 0xFF ∧ carryFold mode c = 1) → (foldOperand mode c v).toNat = v.toNat + carryFold mode c) ∧
    (v = 0xFF → carryFold mode c = 1 →
      (addCore hc a (foldOperand mode c v)).1 = a ∧ (subCore hc a (foldOperand mode c v)).1 = a ∧
      ((addCore hc a (foldOperand mode c v)).2.z = true ↔ a = 0) ∧
      ((subCore hc a (foldOperand mode c v)).2.z = true ↔ a = 0) ∧
      (addCore hc a (foldOperand mode c v)).2.c = false ∧ (subCore hc a (foldOperand mode c v)).2.c = false ∧
      (addCore .preOperand a (foldOperand mode c v)).2.h = false ∧
      (subCore .preOperand a (foldOperand mode c v)).2.h = false ∧
      a.toNat + v.toNat + carryFold mode c > 0xFF)

/-- R101, R116: the carry is set exactly when the wrapped sum is below `a`, the borrow exactly when the wrapped
difference is above `a`; the `pre_operand` half carry and half borrow are the same of the low nibbles. That SUB's C is
the borrow is the spec's own inference (R102, N6), and the `pre_operand` formula is its decision D4. -/
def Obligations.CarriesRecordTheLostBit : Prop :=
  ∀ (mode : HcMode) (a v : Byte),
    ((addCore mode a v).2.c = true ↔ (addCore mode a v).1 < a) ∧
    ((subCore mode a v).2.c = true ↔ a < (subCore mode a v).1) ∧
    ((addCore .preOperand a v).2.h = true ↔ (addCore .preOperand a v).1 &&& 0x0F < a &&& 0x0F) ∧
    ((subCore .preOperand a v).2.h = true ↔ a &&& 0x0F < (subCore .preOperand a v).1 &&& 0x0F)

/-! ### Loads -/

/-- R130: the 49 constructors `ld_<d>_<r>` with `d` and `r` of `A B C D E H L`, among them `ld_B_B`, `ld_C_C`, `ld_D_D`,
`ld_E_E`, `ld_H_H`, `ld_L_L` and `ld_A_A`, which change only `pc`. -/
def Obligations.LoadRegisterFromRegister : Prop :=
  ∀ (i : Instr) (d r : Reg8) (s : State), i.form = .ld8 (.reg d) (.reg r) →
    exec i s = .next { s.setReg d (readReg s r) with pc := s.pc + 1 } ∧
    (d = r → exec i s = .next { s with pc := s.pc + 1 })

/-- R131: `ld_B_indHL`, `ld_C_indHL`, `ld_D_indHL`, `ld_E_indHL`, `ld_H_indHL`, `ld_L_indHL`, `ld_A_indHL`. -/
def Obligations.LoadRegisterFromMemory : Prop :=
  ∀ (i : Instr) (d : Reg8) (s : State), i.form = .ld8 (.reg d) .indHL →
    (∀ v, memRead s (readPair s .HL) = .ok v → exec i s = .next { s.setReg d v with pc := s.pc + 1 }) ∧
    (mapped s (readPair s .HL) = false → exec i s = .fault (.addressOutOfRange (readPair s .HL)))

/-- R132: `ld_indHL_B`, `ld_indHL_C`, `ld_indHL_D`, `ld_indHL_E`, `ld_indHL_H`, `ld_indHL_L`, `ld_indHL_A`. -/
def Obligations.StoreRegisterToMemory : Prop :=
  ∀ (i : Instr) (r : Reg8) (s : State), i.form = .ld8 .indHL (.reg r) →
    (MemoryCanonical s → mapped s (readPair s .HL) = true →
      ∃ m, exec i s = .next { s with mem := m, pc := s.pc + 1 } ∧
        storesOnly s m [(readPair s .HL, readReg s r)]) ∧
    (mapped s (readPair s .HL) = false → exec i s = .fault (.addressOutOfRange (readPair s .HL)))

/-- R133: `ld_B_d8`, `ld_C_d8`, `ld_D_d8`, `ld_E_d8`, `ld_H_d8`, `ld_L_d8`, `ld_A_d8`. -/
def Obligations.LoadRegisterImmediate : Prop :=
  ∀ (i : Instr) (d : Reg8) (s : State), i.form = .ld8 (.reg d) .imm8 →
    (∀ v, memRead s (s.pc + 1) = .ok v → exec i s = .next { s.setReg d v with pc := s.pc + 2 }) ∧
    (mapped s (s.pc + 1) = false → exec i s = .fault (.addressOutOfRange (s.pc + 1)))

/-- R134: `ld_indHL_d8`; the immediate is read first, so its error comes first. -/
def Obligations.StoreImmediateToMemory : Prop :=
  ∀ s : State,
    (∀ v, MemoryCanonical s → memRead s (s.pc + 1) = .ok v → mapped s (readPair s .HL) = true →
      ∃ m, exec .ld_indHL_d8 s = .next { s with mem := m, pc := s.pc + 2 } ∧
        storesOnly s m [(readPair s .HL, v)]) ∧
    (mapped s (s.pc + 1) = false → exec .ld_indHL_d8 s = .fault (.addressOutOfRange (s.pc + 1))) ∧
    (mapped s (s.pc + 1) = true → mapped s (readPair s .HL) = false →
      exec .ld_indHL_d8 s = .fault (.addressOutOfRange (readPair s .HL)))

/-- R135, R136: `ld_BC_d16`, `ld_DE_d16`, `ld_HL_d16`, `ld_SP_d16`; the low byte is read first. -/
def Obligations.LoadWordImmediate : Prop :=
  ∀ s : State,
    (∀ lo hi, memRead s (s.pc + 1) = .ok lo → memRead s (s.pc + 2) = .ok hi →
      exec .ld_BC_d16 s = .next { s with b := hi, c := lo, pc := s.pc + 3 } ∧
      exec .ld_DE_d16 s = .next { s with d := hi, e := lo, pc := s.pc + 3 } ∧
      exec .ld_HL_d16 s = .next { s with h := hi, l := lo, pc := s.pc + 3 } ∧
      exec .ld_SP_d16 s = .next { s with sp := hi ++ lo, pc := s.pc + 3 }) ∧
    ∀ i dst, i.form = .ld16 dst →
      (mapped s (s.pc + 1) = false → exec i s = .fault (.addressOutOfRange (s.pc + 1))) ∧
      (mapped s (s.pc + 1) = true → mapped s (s.pc + 2) = false → exec i s = .fault (.addressOutOfRange (s.pc + 2)))

/-! ### Stack -/

/-- R150, R156: `push_BC`, `push_DE`, `push_HL`, `push_AF`; a push whose second byte fails stores nothing (R226). -/
def Obligations.PushResult : Prop :=
  ∀ (i : Instr) (p : Pair) (s : State), i.form = .push p →
    (MemoryCanonical s → mapped s (s.sp - 1) = true → mapped s (s.sp - 2) = true →
      ∃ m, exec i s = .next { s with mem := m, sp := s.sp - 2, pc := s.pc + 1 } ∧
        storesOnly s m
          [(s.sp - 1, (readPair s p).extractLsb' 8 8), (s.sp - 2, (readPair s p).extractLsb' 0 8)]) ∧
    (mapped s (s.sp - 1) = false → exec i s = .fault (.addressOutOfRange (s.sp - 1))) ∧
    (mapped s (s.sp - 1) = true → mapped s (s.sp - 2) = false → exec i s = .fault (.addressOutOfRange (s.sp - 2)))

/-- R151, R157, R158: `pop_BC`, `pop_DE`, `pop_HL`, and `pop_AF`, which takes the four flags from bits 7 to 4. -/
def Obligations.PopResult : Prop :=
  ∀ s : State,
    (∀ lo hi, memRead s s.sp = .ok lo → memRead s (s.sp + 1) = .ok hi →
      exec .pop_BC s = .next { s with b := hi, c := lo, sp := s.sp + 2, pc := s.pc + 1 } ∧
      exec .pop_DE s = .next { s with d := hi, e := lo, sp := s.sp + 2, pc := s.pc + 1 } ∧
      exec .pop_HL s = .next { s with h := hi, l := lo, sp := s.sp + 2, pc := s.pc + 1 } ∧
      exec .pop_AF s = .next { s with
        a := hi
        flags := ⟨lo.getLsbD 7, lo.getLsbD 6, lo.getLsbD 5, lo.getLsbD 4⟩
        sp := s.sp + 2
        pc := s.pc + 1 }) ∧
    ∀ i p, i.form = .pop p →
      (mapped s s.sp = false → exec i s = .fault (.addressOutOfRange s.sp)) ∧
      (mapped s s.sp = true → mapped s (s.sp + 1) = false → exec i s = .fault (.addressOutOfRange (s.sp + 1)))

/-- R152: a push followed at once by a pop returns the value and the stack pointer, whenever both stack bytes are
mapped. -/
def Obligations.PushThenPopReturnsTheValue : Prop :=
  ∀ (s : State) (v : Word), MemoryCanonical s → mapped s (s.sp - 1) = true → mapped s (s.sp - 2) = true →
    ∃ t, push s v = .ok t ∧ pop t = .ok (v, { t with sp := s.sp })

/-- R160, R161, R162: `call_a16`, `call_NZ_a16`, `call_Z_a16`, `call_NC_a16`, `call_C_a16`. The return address is pushed
first and the target word is read from the memory after the push, and a call that is not taken accesses nothing: the
spec's decision D12. -/
def Obligations.CallResult : Prop :=
  ∀ (i : Instr) (cc : Cond) (s : State), i.form = .call cc →
    (holds s.flags cc = false → exec i s = .next { s with pc := s.pc + 3 }) ∧
    (holds s.flags cc = true → MemoryCanonical s →
      (mapped s (s.sp - 1) = true → mapped s (s.sp - 2) = true → mapped s (s.pc + 1) = true →
        mapped s (s.pc + 2) = true →
        ∃ m lo hi,
          storesOnly s m [(s.sp - 1, (s.pc + 3).extractLsb' 8 8), (s.sp - 2, (s.pc + 3).extractLsb' 0 8)] ∧
          memRead { s with mem := m } (s.pc + 1) = .ok lo ∧ memRead { s with mem := m } (s.pc + 2) = .ok hi ∧
          exec i s = .next { s with mem := m, sp := s.sp - 2, pc := hi ++ lo }) ∧
      (mapped s (s.sp - 1) = false → exec i s = .fault (.addressOutOfRange (s.sp - 1))) ∧
      (mapped s (s.sp - 1) = true → mapped s (s.sp - 2) = false →
        exec i s = .fault (.addressOutOfRange (s.sp - 2))) ∧
      (mapped s (s.sp - 1) = true → mapped s (s.sp - 2) = true → mapped s (s.pc + 1) = false →
        exec i s = .fault (.addressOutOfRange (s.pc + 1))) ∧
      (mapped s (s.sp - 1) = true → mapped s (s.sp - 2) = true → mapped s (s.pc + 1) = true →
        mapped s (s.pc + 2) = false → exec i s = .fault (.addressOutOfRange (s.pc + 2))))

/-- R162, its corner case: a taken CALL whose push lands on its own target bytes jumps to the return address. -/
def Obligations.CallPushingOverItsTargetReturnsAtOnce : Prop :=
  ∀ (i : Instr) (cc : Cond) (s : State), i.form = .call cc → holds s.flags cc = true → MemoryCanonical s →
    s.sp = s.pc + 3 → mapped s (s.pc + 1) = true → mapped s (s.pc + 2) = true →
    ∃ t, exec i s = .next t ∧ t.pc = s.pc + 3 ∧ t.sp = s.pc + 1

/-- R164, R165: `ret`, `ret_NZ`, `ret_Z`, `ret_NC`, `ret_C`. -/
def Obligations.ReturnResult : Prop :=
  ∀ (i : Instr) (cc : Cond) (s : State), i.form = .ret cc →
    (holds s.flags cc = false → exec i s = .next { s with pc := s.pc + 1 }) ∧
    (holds s.flags cc = true →
      (∀ lo hi, memRead s s.sp = .ok lo → memRead s (s.sp + 1) = .ok hi →
        exec i s = .next { s with sp := s.sp + 2, pc := hi ++ lo }) ∧
      (mapped s s.sp = false → exec i s = .fault (.addressOutOfRange s.sp)) ∧
      (mapped s s.sp = true → mapped s (s.sp + 1) = false → exec i s = .fault (.addressOutOfRange (s.sp + 1))))

/-- R258: with the stack pointer at its reset value a PUSH or taken CALL fails at 0xFFFF, and a POP or taken RET
succeeds. -/
def Obligations.StackAtResetPointer : Prop :=
  ∀ (i : Instr) (s : State), s.sp = 0x0000 →
    (∀ p, i.form = .push p → exec i s = .fault (.addressOutOfRange 0xFFFF)) ∧
    (∀ cc, i.form = .call cc → holds s.flags cc = true → exec i s = .fault (.addressOutOfRange 0xFFFF)) ∧
    (∀ p, i.form = .pop p → ∃ t, exec i s = .next t ∧ t.sp = 0x0002) ∧
    (∀ cc, i.form = .ret cc → holds s.flags cc = true → ∃ t, exec i s = .next t ∧ t.sp = 0x0002)

/-! ### Jumps -/

/-- R180, R181: `jp_a16`, `jp_NZ_a16`, `jp_Z_a16`, `jp_NC_a16`, `jp_C_a16`. Not taken, the target word is not read. -/
def Obligations.JumpResult : Prop :=
  ∀ (i : Instr) (cc : Cond) (s : State), i.form = .jp cc →
    (holds s.flags cc = false → exec i s = .next { s with pc := s.pc + 3 }) ∧
    (holds s.flags cc = true →
      (∀ lo hi, memRead s (s.pc + 1) = .ok lo → memRead s (s.pc + 2) = .ok hi →
        exec i s = .next { s with pc := hi ++ lo }) ∧
      (mapped s (s.pc + 1) = false → exec i s = .fault (.addressOutOfRange (s.pc + 1))) ∧
      (mapped s (s.pc + 1) = true → mapped s (s.pc + 2) = false →
        exec i s = .fault (.addressOutOfRange (s.pc + 2))))

/-- R180, R265, R266: a JP to its own address is a hang, an endless run that neither halts nor fails. The JP is named by
its opcode byte 0xC3, which is the spec's own decision D1 (log 3), not a byte the source gives. -/
def Obligations.JumpToItselfNeverEnds : Prop :=
  ∀ (s : State) (k : Nat), s.halted = false →
    bytesAt s s.pc [0xC3, s.pc.extractLsb' 0 8, s.pc.extractLsb' 8 8] → step s = .next s ∧ runFor k s = .noEnd s

/-! ### SWAP, NOP, HALT -/

/-- R193, with the nibble exchange of R191 (the spec's general knowledge) and the flags of R192 (decision D7): `swap_B`,
`swap_C`, `swap_D`, `swap_E`, `swap_H`, `swap_L`, `swap_A`. -/
def Obligations.SwapRegisterResult : Prop :=
  ∀ (i : Instr) (r : Reg8) (s : State), i.form = .swap (.reg r) →
    exec i s = .next { s.setReg r (nibblesExchanged (readReg s r)) with
      flags := swapFlagsOf s (nibblesExchanged (readReg s r))
      pc := s.pc + 2 }

/-- R194, with R191 and R192 (decision D7): `swap_indHL`, a read and then a write of the same address. -/
def Obligations.SwapMemoryResult : Prop :=
  ∀ s : State,
    (∀ v, MemoryCanonical s → memRead s (readPair s .HL) = .ok v →
      ∃ m,
        exec .swap_indHL s =
          .next { s with mem := m, flags := swapFlagsOf s (nibblesExchanged v), pc := s.pc + 2 } ∧
        storesOnly s m [(readPair s .HL, nibblesExchanged v)]) ∧
    (mapped s (readPair s .HL) = false → exec .swap_indHL s = .fault (.addressOutOfRange (readPair s .HL)))

/-- R191: the nibble swap is its own inverse and gives zero only of zero. -/
def Obligations.SwapIsItsOwnInverse : Prop :=
  ∀ v : Byte, swapNibbles (swapNibbles v) = v ∧ (swapNibbles v = 0 ↔ v = 0) ∧ swapNibbles v = nibblesExchanged v

/-- R200, R201: `nop` and `halt`; after HALT every step is the no-op of R203. -/
def Obligations.EngineControlResult : Prop :=
  ∀ s : State,
    exec .nop s = .next { s with pc := s.pc + 1 } ∧
    exec .halt s = .next { s with halted := true, pc := s.pc + 1 } ∧
    ∀ t, exec .halt s = .next t → step t = .next t

/-! ### Whole-machine frames -/

/-- R30: every instruction but the arithmetic family, POP AF and SWAP under `conventional` leaves the flags alone. -/
def Obligations.FlagsChangeOnlyByTheirWriters : Prop :=
  ∀ (i : Instr) (s t : State), exec i s = .next t → mayWriteFlags s i.form = false → t.flags = s.flags

/-- R26: no instruction writes a register its row of the table does not name. -/
def Obligations.RegistersChangeOnlyByTheirWriters : Prop :=
  ∀ (i : Instr) (s t : State) (r : Reg8),
    exec i s = .next t → mayWriteReg i.form r = false → readReg t r = readReg s r

/-- R34, R65: only LD SP,d16, PUSH, POP, and a taken CALL or RET write `sp`; only a `(HL)` destination, PUSH and a taken
CALL write memory, ROM and the boot image included. -/
def Obligations.StackPointerAndMemoryChangeOnlyByTheirWriters : Prop :=
  ∀ (i : Instr) (s t : State), exec i s = .next t →
    (mayWriteSp s i.form = false → t.sp = s.sp) ∧ (mayWriteMem s i.form = false → t.mem = s.mem)

/-- R80, R205: every instruction that is no branch advances `pc` by its length, modulo 65536. -/
def Obligations.SuccessorPcIsPcPlusLength : Prop :=
  ∀ (i : Instr) (s t : State), exec i s = .next t → isBranch i.form = false →
    t.pc = s.pc + BitVec.ofNat 16 i.length ∧ i.length = (encode i).length + i.operandBytes

/-- R36: a step leaves the machine halted exactly when it was halted before or the byte at `pc` was HALT's, and ending
boot mode does not change `halted`. HALT is named by its byte 0x76 (R201), which is the spec's own decision D1 (log 3);
R36 gives no byte. -/
def Obligations.OnlyHaltEntersTheHaltedState : Prop :=
  (∀ s t : State, step s = .next t →
    (t.halted = true ↔ s.halted = true ∨ memRead s s.pc = .ok 0x76)) ∧
    ∀ s : State, (disableBoot s).halted = s.halted

/-! ### Invariants and isolation -/

/-- Every step keeps the memory in canonical form (the model's invariant, log 8), from every state. -/
def Obligations.StepKeepsMemoryCanonical : Prop :=
  ∀ s t : State, MemoryCanonical s → step s = .next t → MemoryCanonical t

/-- R37, R7: no step changes `boot_active` or the parameters. -/
def Obligations.StepKeepsBootModeAndParameters : Prop :=
  ∀ s t : State, step s = .next t → t.bootActive = s.bootActive ∧ t.params = s.params

/-- R262: construction gives a machine in canonical form, and every move of the host keeps it so, with its parameters.
-/
def Obligations.HostMovesKeepTheInvariant : Prop :=
  (∀ p boot cart t, construct p boot cart = .next t → MemoryCanonical t) ∧
    ∀ (x y : Session) (m : Move), MemoryCanonical x.machine → makeMove x m = some y →
      MemoryCanonical y.machine ∧ y.machine.params = x.machine.params

/-- R226, R228: a call of `step()` that fails leaves the machine as it was and records the error, and the session takes
no further step (the model's reading of a fatal error, log 7). -/
def Obligations.FailedStepLeavesTheMachine : Prop :=
  ∀ (x : Session) (f : Fault), x.stopped = none → step x.machine = .fault f →
    callStep x = ⟨x.machine, some (.error f)⟩ ∧ callStep (callStep x) = callStep x

/-- R52: while the boot overlay is active, ROM bank 0 below 0x0100 can neither be read nor be changed by a step: two
states that differ only there take the same step. -/
def Obligations.HiddenRomCannotBeObserved : Prop :=
  ∀ s s' : State, s.bootActive = true → MemoryCanonical s → MemoryCanonical s' → sameButHidden s s' →
    outcomesAgree (step s) (step s') ∧
    ∀ t off, step s = .next t → off ≤ 0x00FF → t.mem.read .rom0 off = s.mem.read .rom0 off
end

