-- ==== Sys2Proof/Laws/State.lean ====
section
/-! SUPPORT. One lemma per field and update of the state, so that no later proof unfolds a record update. -/

namespace Sys2Proof.Machine

@[simp] theorem State.setPc_a (s : State) (v : Word) : (s.setPc v).a = s.a := rfl
@[simp] theorem State.setPc_b (s : State) (v : Word) : (s.setPc v).b = s.b := rfl
@[simp] theorem State.setPc_c (s : State) (v : Word) : (s.setPc v).c = s.c := rfl
@[simp] theorem State.setPc_d (s : State) (v : Word) : (s.setPc v).d = s.d := rfl
@[simp] theorem State.setPc_e (s : State) (v : Word) : (s.setPc v).e = s.e := rfl
@[simp] theorem State.setPc_h (s : State) (v : Word) : (s.setPc v).h = s.h := rfl
@[simp] theorem State.setPc_l (s : State) (v : Word) : (s.setPc v).l = s.l := rfl
@[simp] theorem State.setPc_flags (s : State) (v : Word) : (s.setPc v).flags = s.flags := rfl
@[simp] theorem State.setPc_pc (s : State) (v : Word) : (s.setPc v).pc = v := rfl
@[simp] theorem State.setPc_sp (s : State) (v : Word) : (s.setPc v).sp = s.sp := rfl
@[simp] theorem State.setPc_halted (s : State) (v : Word) : (s.setPc v).halted = s.halted := rfl
@[simp] theorem State.setPc_bootActive (s : State) (v : Word) : (s.setPc v).bootActive = s.bootActive := rfl
@[simp] theorem State.setPc_mem (s : State) (v : Word) : (s.setPc v).mem = s.mem := rfl
@[simp] theorem State.setPc_params (s : State) (v : Word) : (s.setPc v).params = s.params := rfl

@[simp] theorem State.setSp_a (s : State) (v : Word) : (s.setSp v).a = s.a := rfl
@[simp] theorem State.setSp_b (s : State) (v : Word) : (s.setSp v).b = s.b := rfl
@[simp] theorem State.setSp_c (s : State) (v : Word) : (s.setSp v).c = s.c := rfl
@[simp] theorem State.setSp_d (s : State) (v : Word) : (s.setSp v).d = s.d := rfl
@[simp] theorem State.setSp_e (s : State) (v : Word) : (s.setSp v).e = s.e := rfl
@[simp] theorem State.setSp_h (s : State) (v : Word) : (s.setSp v).h = s.h := rfl
@[simp] theorem State.setSp_l (s : State) (v : Word) : (s.setSp v).l = s.l := rfl
@[simp] theorem State.setSp_flags (s : State) (v : Word) : (s.setSp v).flags = s.flags := rfl
@[simp] theorem State.setSp_pc (s : State) (v : Word) : (s.setSp v).pc = s.pc := rfl
@[simp] theorem State.setSp_sp (s : State) (v : Word) : (s.setSp v).sp = v := rfl
@[simp] theorem State.setSp_halted (s : State) (v : Word) : (s.setSp v).halted = s.halted := rfl
@[simp] theorem State.setSp_bootActive (s : State) (v : Word) : (s.setSp v).bootActive = s.bootActive := rfl
@[simp] theorem State.setSp_mem (s : State) (v : Word) : (s.setSp v).mem = s.mem := rfl
@[simp] theorem State.setSp_params (s : State) (v : Word) : (s.setSp v).params = s.params := rfl

@[simp] theorem State.setFlags_a (s : State) (v : Flags) : (s.setFlags v).a = s.a := rfl
@[simp] theorem State.setFlags_b (s : State) (v : Flags) : (s.setFlags v).b = s.b := rfl
@[simp] theorem State.setFlags_c (s : State) (v : Flags) : (s.setFlags v).c = s.c := rfl
@[simp] theorem State.setFlags_d (s : State) (v : Flags) : (s.setFlags v).d = s.d := rfl
@[simp] theorem State.setFlags_e (s : State) (v : Flags) : (s.setFlags v).e = s.e := rfl
@[simp] theorem State.setFlags_h (s : State) (v : Flags) : (s.setFlags v).h = s.h := rfl
@[simp] theorem State.setFlags_l (s : State) (v : Flags) : (s.setFlags v).l = s.l := rfl
@[simp] theorem State.setFlags_flags (s : State) (v : Flags) : (s.setFlags v).flags = v := rfl
@[simp] theorem State.setFlags_pc (s : State) (v : Flags) : (s.setFlags v).pc = s.pc := rfl
@[simp] theorem State.setFlags_sp (s : State) (v : Flags) : (s.setFlags v).sp = s.sp := rfl
@[simp] theorem State.setFlags_halted (s : State) (v : Flags) : (s.setFlags v).halted = s.halted := rfl
@[simp] theorem State.setFlags_bootActive (s : State) (v : Flags) : (s.setFlags v).bootActive = s.bootActive := rfl
@[simp] theorem State.setFlags_mem (s : State) (v : Flags) : (s.setFlags v).mem = s.mem := rfl
@[simp] theorem State.setFlags_params (s : State) (v : Flags) : (s.setFlags v).params = s.params := rfl

@[simp] theorem State.setMem_a (s : State) (v : Memory) : (s.setMem v).a = s.a := rfl
@[simp] theorem State.setMem_b (s : State) (v : Memory) : (s.setMem v).b = s.b := rfl
@[simp] theorem State.setMem_c (s : State) (v : Memory) : (s.setMem v).c = s.c := rfl
@[simp] theorem State.setMem_d (s : State) (v : Memory) : (s.setMem v).d = s.d := rfl
@[simp] theorem State.setMem_e (s : State) (v : Memory) : (s.setMem v).e = s.e := rfl
@[simp] theorem State.setMem_h (s : State) (v : Memory) : (s.setMem v).h = s.h := rfl
@[simp] theorem State.setMem_l (s : State) (v : Memory) : (s.setMem v).l = s.l := rfl
@[simp] theorem State.setMem_flags (s : State) (v : Memory) : (s.setMem v).flags = s.flags := rfl
@[simp] theorem State.setMem_pc (s : State) (v : Memory) : (s.setMem v).pc = s.pc := rfl
@[simp] theorem State.setMem_sp (s : State) (v : Memory) : (s.setMem v).sp = s.sp := rfl
@[simp] theorem State.setMem_halted (s : State) (v : Memory) : (s.setMem v).halted = s.halted := rfl
@[simp] theorem State.setMem_bootActive (s : State) (v : Memory) : (s.setMem v).bootActive = s.bootActive := rfl
@[simp] theorem State.setMem_mem (s : State) (v : Memory) : (s.setMem v).mem = v := rfl
@[simp] theorem State.setMem_params (s : State) (v : Memory) : (s.setMem v).params = s.params := rfl

@[simp] theorem State.setHalted_a (s : State) (v : Bool) : (s.setHalted v).a = s.a := rfl
@[simp] theorem State.setHalted_b (s : State) (v : Bool) : (s.setHalted v).b = s.b := rfl
@[simp] theorem State.setHalted_c (s : State) (v : Bool) : (s.setHalted v).c = s.c := rfl
@[simp] theorem State.setHalted_d (s : State) (v : Bool) : (s.setHalted v).d = s.d := rfl
@[simp] theorem State.setHalted_e (s : State) (v : Bool) : (s.setHalted v).e = s.e := rfl
@[simp] theorem State.setHalted_h (s : State) (v : Bool) : (s.setHalted v).h = s.h := rfl
@[simp] theorem State.setHalted_l (s : State) (v : Bool) : (s.setHalted v).l = s.l := rfl
@[simp] theorem State.setHalted_flags (s : State) (v : Bool) : (s.setHalted v).flags = s.flags := rfl
@[simp] theorem State.setHalted_pc (s : State) (v : Bool) : (s.setHalted v).pc = s.pc := rfl
@[simp] theorem State.setHalted_sp (s : State) (v : Bool) : (s.setHalted v).sp = s.sp := rfl
@[simp] theorem State.setHalted_halted (s : State) (v : Bool) : (s.setHalted v).halted = v := rfl
@[simp] theorem State.setHalted_bootActive (s : State) (v : Bool) : (s.setHalted v).bootActive = s.bootActive := rfl
@[simp] theorem State.setHalted_mem (s : State) (v : Bool) : (s.setHalted v).mem = s.mem := rfl
@[simp] theorem State.setHalted_params (s : State) (v : Bool) : (s.setHalted v).params = s.params := rfl

@[simp] theorem State.setBootActive_a (s : State) (v : Bool) : (s.setBootActive v).a = s.a := rfl
@[simp] theorem State.setBootActive_b (s : State) (v : Bool) : (s.setBootActive v).b = s.b := rfl
@[simp] theorem State.setBootActive_c (s : State) (v : Bool) : (s.setBootActive v).c = s.c := rfl
@[simp] theorem State.setBootActive_d (s : State) (v : Bool) : (s.setBootActive v).d = s.d := rfl
@[simp] theorem State.setBootActive_e (s : State) (v : Bool) : (s.setBootActive v).e = s.e := rfl
@[simp] theorem State.setBootActive_h (s : State) (v : Bool) : (s.setBootActive v).h = s.h := rfl
@[simp] theorem State.setBootActive_l (s : State) (v : Bool) : (s.setBootActive v).l = s.l := rfl
@[simp] theorem State.setBootActive_flags (s : State) (v : Bool) : (s.setBootActive v).flags = s.flags := rfl
@[simp] theorem State.setBootActive_pc (s : State) (v : Bool) : (s.setBootActive v).pc = s.pc := rfl
@[simp] theorem State.setBootActive_sp (s : State) (v : Bool) : (s.setBootActive v).sp = s.sp := rfl
@[simp] theorem State.setBootActive_halted (s : State) (v : Bool) : (s.setBootActive v).halted = s.halted := rfl
@[simp] theorem State.setBootActive_bootActive (s : State) (v : Bool) : (s.setBootActive v).bootActive = v := rfl
@[simp] theorem State.setBootActive_mem (s : State) (v : Bool) : (s.setBootActive v).mem = s.mem := rfl
@[simp] theorem State.setBootActive_params (s : State) (v : Bool) : (s.setBootActive v).params = s.params := rfl

@[simp] theorem State.setReg_flags (s : State) (r : Reg8) (v : Byte) : (s.setReg r v).flags = s.flags := by cases r <;> rfl
@[simp] theorem State.setReg_pc (s : State) (r : Reg8) (v : Byte) : (s.setReg r v).pc = s.pc := by cases r <;> rfl
@[simp] theorem State.setReg_sp (s : State) (r : Reg8) (v : Byte) : (s.setReg r v).sp = s.sp := by cases r <;> rfl
@[simp] theorem State.setReg_halted (s : State) (r : Reg8) (v : Byte) : (s.setReg r v).halted = s.halted := by cases r <;> rfl
@[simp] theorem State.setReg_bootActive (s : State) (r : Reg8) (v : Byte) : (s.setReg r v).bootActive = s.bootActive := by cases r <;> rfl
@[simp] theorem State.setReg_mem (s : State) (r : Reg8) (v : Byte) : (s.setReg r v).mem = s.mem := by cases r <;> rfl
@[simp] theorem State.setReg_params (s : State) (r : Reg8) (v : Byte) : (s.setReg r v).params = s.params := by cases r <;> rfl

/-- R21, R22: a register write changes that cell and no other. -/
@[simp] theorem readReg_setReg (s : State) (r r' : Reg8) (v : Byte) :
    readReg (s.setReg r v) r' = if r = r' then v else readReg s r' := by
  cases r <;> cases r' <;> rfl

@[simp] theorem readReg_setPc (s : State) (v : Word) (r : Reg8) : readReg (s.setPc v) r = readReg s r := by cases r <;> rfl
@[simp] theorem readReg_setSp (s : State) (v : Word) (r : Reg8) : readReg (s.setSp v) r = readReg s r := by cases r <;> rfl
@[simp] theorem readReg_setFlags (s : State) (v : Flags) (r : Reg8) : readReg (s.setFlags v) r = readReg s r := by cases r <;> rfl
@[simp] theorem readReg_setMem (s : State) (v : Memory) (r : Reg8) : readReg (s.setMem v) r = readReg s r := by cases r <;> rfl
@[simp] theorem readReg_setHalted (s : State) (v : Bool) (r : Reg8) : readReg (s.setHalted v) r = readReg s r := by cases r <;> rfl
@[simp] theorem readReg_setBootActive (s : State) (v : Bool) (r : Reg8) : readReg (s.setBootActive v) r = readReg s r := by cases r <;> rfl

@[simp] theorem State.setPair_pc (s : State) (p : Pair) (v : Word) : (s.setPair p v).pc = s.pc := by cases p <;> rfl
@[simp] theorem State.setPair_sp (s : State) (p : Pair) (v : Word) : (s.setPair p v).sp = s.sp := by cases p <;> rfl
@[simp] theorem State.setPair_halted (s : State) (p : Pair) (v : Word) : (s.setPair p v).halted = s.halted := by cases p <;> rfl
@[simp] theorem State.setPair_bootActive (s : State) (p : Pair) (v : Word) : (s.setPair p v).bootActive = s.bootActive := by cases p <;> rfl
@[simp] theorem State.setPair_mem (s : State) (p : Pair) (v : Word) : (s.setPair p v).mem = s.mem := by cases p <;> rfl
@[simp] theorem State.setPair_params (s : State) (p : Pair) (v : Word) : (s.setPair p v).params = s.params := by cases p <;> rfl
@[simp] theorem State.setDst16_pc (s : State) (d : Dst16) (v : Word) : (s.setDst16 d v).pc = s.pc := by cases d <;> rfl
@[simp] theorem State.setDst16_halted (s : State) (d : Dst16) (v : Word) : (s.setDst16 d v).halted = s.halted := by cases d <;> rfl
@[simp] theorem State.setDst16_bootActive (s : State) (d : Dst16) (v : Word) : (s.setDst16 d v).bootActive = s.bootActive := by cases d <;> rfl
@[simp] theorem State.setDst16_mem (s : State) (d : Dst16) (v : Word) : (s.setDst16 d v).mem = s.mem := by cases d <;> rfl
@[simp] theorem State.setDst16_params (s : State) (d : Dst16) (v : Word) : (s.setDst16 d v).params = s.params := by cases d <;> rfl
@[simp] theorem State.setDst16_flags (s : State) (d : Dst16) (v : Word) : (s.setDst16 d v).flags = s.flags := by cases d <;> rfl

/-- Only POP AF's pair holds the flags (R24). -/
theorem State.setPair_flags (s : State) (p : Pair) (v : Word) (h : p ≠ .AF) : (s.setPair p v).flags = s.flags := by
  cases p <;> first | rfl | exact absurd rfl h

@[simp] theorem readPair_setPc (s : State) (v : Word) (p : Pair) : readPair (s.setPc v) p = readPair s p := by cases p <;> rfl
@[simp] theorem readPair_setSp (s : State) (v : Word) (p : Pair) : readPair (s.setSp v) p = readPair s p := by cases p <;> rfl
@[simp] theorem readPair_setMem (s : State) (m : Memory) (p : Pair) : readPair (s.setMem m) p = readPair s p := by cases p <;> rfl

end Sys2Proof.Machine
end

