-- ==== Sys2Proof/Laws/Memory.lean ====
section
/-! SUPPORT. The backing arrays: a read after a write, that every write keeps the canonical form, that canonical arrays
with equal reads are equal, and what the routing function answers. -/

namespace Sys2Proof.Machine

/-! ### One array -/

theorem getCell_setCell_other (cs : List Host.Cell) (k j : Nat) (v : Byte) (h : j ≠ k) :
    getCell (setCell cs k v) j = getCell cs j := by
  induction cs with
  | nil => by_cases hv : v = unlistedByte <;> simp [setCell, getCell, hv, h.symm]
  | cons c rest ih =>
    obtain ⟨i, w⟩ := c
    by_cases h1 : i < k
    · simp [setCell, getCell, h1, ih]
    by_cases h2 : i = k
    · subst h2
      by_cases hv : v = unlistedByte <;> simp [setCell, getCell, hv, h.symm]
    · by_cases hv : v = unlistedByte <;> simp [setCell, getCell, hv, h1, h2, h.symm]

theorem canonicalFrom_cons (size lo k : Nat) (v : Byte) (rest : List Host.Cell) :
    canonicalFrom size lo ((k, v) :: rest) = true ↔
      lo ≤ k ∧ k < size ∧ v ≠ unlistedByte ∧ canonicalFrom size (k + 1) rest = true := by
  simp [canonicalFrom, and_assoc]

/-- A canonical array lists nothing below its bound. -/
theorem getCell_below {size lo k : Nat} {cs : List Host.Cell} (h : canonicalFrom size lo cs = true) (hk : k < lo) :
    getCell cs k = unlistedByte := by
  induction cs generalizing lo with
  | nil => rfl
  | cons c rest ih =>
    obtain ⟨j, w⟩ := c
    obtain ⟨h1, -, -, h4⟩ := (canonicalFrom_cons ..).1 h
    have hj : j ≠ k := by omega
    simp [getCell, hj, ih h4 (by omega)]

theorem getCell_setCell_same {size lo : Nat} {cs : List Host.Cell} (h : canonicalFrom size lo cs = true) (k : Nat)
    (v : Byte) : getCell (setCell cs k v) k = v := by
  induction cs generalizing lo with
  | nil => by_cases hv : v = unlistedByte <;> simp [setCell, getCell, hv]
  | cons c rest ih =>
    obtain ⟨j, w⟩ := c
    obtain ⟨-, -, -, h4⟩ := (canonicalFrom_cons ..).1 h
    by_cases h1 : j < k
    · have hj : j ≠ k := by omega
      simp [setCell, getCell, h1, hj, ih h4]
    by_cases h2 : j = k
    · subst h2
      by_cases hv : v = unlistedByte
      · simp [setCell, hv, getCell_below h4 (Nat.lt_succ_self j)]
      · simp [setCell, getCell, hv]
    · by_cases hv : v = unlistedByte
      · have hk : k < j + 1 := by omega
        simp [setCell, getCell, hv, h1, h2, getCell_below h4 hk]
      · simp [setCell, getCell, hv, h1, h2]

theorem canonicalFrom_mono {size lo lo' : Nat} {cs : List Host.Cell} (h : canonicalFrom size lo cs = true)
    (hle : lo' ≤ lo) : canonicalFrom size lo' cs = true := by
  cases cs with
  | nil => rfl
  | cons c rest =>
    obtain ⟨j, w⟩ := c
    obtain ⟨h1, h2, h3, h4⟩ := (canonicalFrom_cons ..).1 h
    exact (canonicalFrom_cons ..).2 ⟨by omega, h2, h3, h4⟩

/-- A write to an array keeps its canonical form. -/
theorem canonicalFrom_setCell {size lo k : Nat} {cs : List Host.Cell} (h : canonicalFrom size lo cs = true)
    (hlo : lo ≤ k) (hk : k < size) (v : Byte) : canonicalFrom size lo (setCell cs k v) = true := by
  induction cs generalizing lo with
  | nil =>
    by_cases hv : v = unlistedByte
    · simp [setCell, hv, canonicalFrom]
    · simpa [setCell, hv] using (canonicalFrom_cons ..).2 ⟨hlo, hk, hv, rfl⟩
  | cons c rest ih =>
    obtain ⟨j, w⟩ := c
    obtain ⟨h1, h2, h3, h4⟩ := (canonicalFrom_cons ..).1 h
    by_cases hj : j < k
    · simpa [setCell, hj] using (canonicalFrom_cons ..).2 ⟨h1, h2, h3, ih h4 hj⟩
    by_cases he : j = k
    · subst he
      by_cases hv : v = unlistedByte
      · simpa [setCell, hv] using canonicalFrom_mono h4 (by omega)
      · simpa [setCell, hv] using (canonicalFrom_cons ..).2 ⟨hlo, hk, hv, h4⟩
    · by_cases hv : v = unlistedByte
      · simpa [setCell, hj, he, hv] using h
      · simpa [setCell, hj, he, hv] using
          (canonicalFrom_cons ..).2 ⟨hlo, hk, hv, (canonicalFrom_cons ..).2 ⟨by omega, h2, h3, h4⟩⟩

/-- Equal reads make equal canonical arrays: the canonical form is one list per content. -/
theorem canonical_ext {size lo : Nat} {cs ds : List Host.Cell} (hc : canonicalFrom size lo cs = true)
    (hd : canonicalFrom size lo ds = true) (h : ∀ k, getCell cs k = getCell ds k) : cs = ds := by
  induction cs generalizing lo ds with
  | nil =>
    cases ds with
    | nil => rfl
    | cons d rest =>
      obtain ⟨j, w⟩ := d
      obtain ⟨-, -, h3, -⟩ := (canonicalFrom_cons ..).1 hd
      exact absurd (by simpa [getCell] using (h j).symm) h3
  | cons c rest ih =>
    obtain ⟨i, v⟩ := c
    obtain ⟨h1, h2, h3, h4⟩ := (canonicalFrom_cons ..).1 hc
    cases ds with
    | nil => exact absurd (by simpa [getCell] using h i) h3
    | cons d rest' =>
      obtain ⟨j, w⟩ := d
      obtain ⟨g1, g2, g3, g4⟩ := (canonicalFrom_cons ..).1 hd
      have hij : i = j := by
        rcases Nat.lt_trichotomy i j with hlt | heq | hgt
        · have := h i
          have hji : j ≠ i := by omega
          simp only [getCell, if_true, hji, if_false] at this
          exact absurd (this.trans (getCell_below g4 (by omega))) h3
        · exact heq
        · have := h j
          have hij : i ≠ j := by omega
          simp only [getCell, if_true, hij, if_false] at this
          exact absurd (this.symm.trans (getCell_below h4 (by omega))) g3
      subst hij
      have hvw : v = w := by simpa [getCell] using h i
      subst hvw
      have htail : ∀ k, getCell rest k = getCell rest' k := by
        intro k
        by_cases hk : i = k
        · subst hk
          rw [getCell_below h4 (Nat.lt_succ_self _), getCell_below g4 (Nat.lt_succ_self _)]
        · simpa [getCell, hk] using h k
      rw [ih h4 g4 htail]

/-! ### The memory -/

@[simp] theorem Memory.cells_withCells (m : Memory) (arr arr' : Backing) (cs : List Host.Cell) :
    (m.withCells arr cs).cells arr' = if arr = arr' then cs else m.cells arr' := by
  cases arr <;> cases arr' <;> rfl

theorem Memory.wf_iff (m : Memory) : m.wf = true ↔ ∀ arr, m.wfAt arr = true := by
  constructor
  · intro h arr
    simp only [Memory.wf, Bool.and_eq_true] at h
    cases arr <;> simp [h]
  · intro h
    simp [Memory.wf, h]

theorem Memory.read_write_same {m : Memory} (h : m.wf = true) (arr : Backing) (off : Nat) (v : Byte) :
    (m.write arr off v).read arr off = v := by
  simpa [Memory.read, Memory.write] using getCell_setCell_same ((m.wf_iff.1 h) arr) off v

theorem Memory.read_write_other (m : Memory) (arr arr' : Backing) (off off' : Nat) (v : Byte)
    (h : (arr, off) ≠ (arr', off')) : (m.write arr off v).read arr' off' = m.read arr' off' := by
  by_cases ha : arr = arr'
  · subst ha
    have ho : off' ≠ off := fun e => h (by rw [e])
    simpa [Memory.read, Memory.write] using getCell_setCell_other (m.cells arr) off off' v ho
  · simp [Memory.read, Memory.write, ha]

/-- A write inside an array keeps the memory's canonical form. -/
theorem Memory.wf_write {m : Memory} (h : m.wf = true) {arr : Backing} {off : Nat} (ho : off < backingSize arr)
    (v : Byte) : (m.write arr off v).wf = true := by
  rw [Memory.wf_iff]
  intro arr'
  by_cases ha : arr = arr'
  · subst ha
    simpa [Memory.wfAt, Memory.write] using canonicalFrom_setCell ((m.wf_iff.1 h) arr) (Nat.zero_le _) ho v
  · simpa [Memory.wfAt, Memory.write, ha] using (m.wf_iff.1 h) arr'

/-! ### Routing -/

/-- The eight ways an access is routed (R53). -/
theorem route_eq_some {addr : Word} {ba : Bool} {arr : Backing} {off : Nat} (h : route addr ba = some (arr, off)) :
    (ba = true ∧ addr.toNat ≤ 0x00FF ∧ arr = .boot ∧ off = addr.toNat) ∨
    ((ba = false ∨ 0x0100 ≤ addr.toNat) ∧ addr.toNat ≤ 0x3FFF ∧ arr = .rom0 ∧ off = addr.toNat) ∨
    (0x4000 ≤ addr.toNat ∧ addr.toNat ≤ 0x7FFF ∧ arr = .romN ∧ off = addr.toNat - 0x4000) ∨
    (0x8000 ≤ addr.toNat ∧ addr.toNat ≤ 0x9FFF ∧ arr = .vram ∧ off = addr.toNat - 0x8000) ∨
    (0xA000 ≤ addr.toNat ∧ addr.toNat ≤ 0xBFFF ∧ arr = .eram ∧ off = addr.toNat - 0xA000) ∨
    (0xC000 ≤ addr.toNat ∧ addr.toNat ≤ 0xDFFF ∧ arr = .wram ∧ off = addr.toNat - 0xC000) ∨
    (0xE000 ≤ addr.toNat ∧ addr.toNat ≤ 0xFDFF ∧ arr = .wram ∧ off = addr.toNat - 0xE000) ∨
    (0xFF80 ≤ addr.toNat ∧ addr.toNat ≤ 0xFFFE ∧ arr = .hram ∧ off = addr.toNat - 0xFF80) := by
  simp only [route] at h
  split at h
  · rename_i hb
    simp only [Bool.and_eq_true, decide_eq_true_eq] at hb
    simp only [Option.some.injEq, Prod.mk.injEq] at h
    exact .inl ⟨hb.1, hb.2, h.1.symm, h.2.symm⟩
  · rename_i hb
    have hb' : ba = false ∨ 0x0100 ≤ addr.toNat := by
      cases ba
      · exact .inl rfl
      · simp only [Bool.true_and, decide_eq_true_eq] at hb; exact .inr (by omega)
    repeat' split at h
    all_goals simp only [Option.some.injEq, Prod.mk.injEq, reduceCtorEq] at h
    all_goals
      obtain ⟨h1, h2⟩ := h
      subst h1
      simp only [reduceCtorEq, false_and, and_false, false_or, or_false, true_and]
    · exact ⟨hb', by omega, h2.symm⟩
    all_goals omega

/-- R51: a routed offset lies inside its array. -/
theorem route_offset_lt {addr : Word} {ba : Bool} {arr : Backing} {off : Nat}
    (h : route addr ba = some (arr, off)) : off < backingSize arr := by
  rcases route_eq_some h with ⟨-, _, rfl, _⟩ | ⟨-, _, rfl, _⟩ | ⟨_, _, rfl, _⟩ | ⟨_, _, rfl, _⟩ | ⟨_, _, rfl, _⟩ |
    ⟨_, _, rfl, _⟩ | ⟨_, _, rfl, _⟩ | ⟨_, _, rfl, _⟩ <;> simp only [backingSize] <;> omega

end Sys2Proof.Machine
end

