-- ==== Sys2Proof/Laws/Construct.lean ====
section
/-! SUPPORT. The cells construction writes are canonical and hold the image's bytes. -/

namespace Sys2Proof.Machine

theorem emptyMemory_wf : emptyMemory.wf = true := by decide

theorem cellsFrom_canonical (size : Nat) (bs : List Byte) (k : Nat) (h : k + bs.length ≤ size) :
    canonicalFrom size k (cellsFrom k bs) = true := by
  induction bs generalizing k with
  | nil => rfl
  | cons v rest ih =>
    simp only [List.length_cons] at h
    have hrest := ih (k + 1) (by omega)
    unfold cellsFrom
    split
    · exact canonicalFrom_mono hrest (by omega)
    · exact (canonicalFrom_cons ..).2 ⟨by omega, by omega, by assumption, hrest⟩

/-- The cell at `k + j` is the image's byte `j`, and zero past its end. -/
theorem getCell_cellsFrom (bs : List Byte) (k j : Nat) : getCell (cellsFrom k bs) (k + j) = bs.getD j unlistedByte := by
  induction bs generalizing k j with
  | nil => simp [cellsFrom, getCell]
  | cons v rest ih =>
    unfold cellsFrom
    cases j with
    | zero =>
      split
      · rename_i hv
        have hc := cellsFrom_canonical (k + 1 + rest.length) rest (k + 1) (Nat.le_refl _)
        rw [Nat.add_zero, getCell_below hc (by omega)]
        simp [hv]
      · simp [getCell]
    | succ j =>
      have e : k + (j + 1) = k + 1 + j := by omega
      split
      · rw [e, ih]; simp
      · rw [e]; simp only [getCell, show k ≠ k + 1 + j by omega, if_false, ih]; simp

end Sys2Proof.Machine
end

