-- ==== Sys2Proof/Laws/Ops.lean ====
section
/-! SUPPORT. What each shared operation can do, said once: the prover cites these and does not unfold the operation. -/

namespace Sys2Proof.Machine

/-! ### Sequencing of accesses -/

@[simp] theorem ok_bind {α β : Type} (x : α) (f : α → Except Fault β) : (Except.ok x >>= f) = f x := rfl

@[simp] theorem error_bind {α β : Type} (e : Fault) (f : α → Except Fault β) :
    ((Except.error e : Except Fault α) >>= f) = Except.error e := rfl

@[simp] theorem pure_eq_ok {α : Type} (x : α) : (pure x : Except Fault α) = Except.ok x := rfl

theorem bind_eq_ok {α β : Type} {x : Except Fault α} {f : α → Except Fault β} {b : β} :
    (x >>= f) = .ok b ↔ ∃ a, x = .ok a ∧ f a = .ok b := by
  cases x <;> simp

theorem bind_eq_error {α β : Type} {x : Except Fault α} {f : α → Except Fault β} {e : Fault} :
    (x >>= f) = .error e ↔ x = .error e ∨ ∃ a, x = .ok a ∧ f a = .error e := by
  cases x <;> simp

@[simp] theorem commit_ok (t : State) : commit (.ok t) = .next t := rfl

@[simp] theorem commit_error (f : Fault) : commit (.error f) = .fault f := rfl

theorem commit_eq_next {x : Except Fault State} {t : State} : commit x = .next t ↔ x = .ok t := by
  cases x <;> simp [commit]

theorem commit_eq_fault {x : Except Fault State} {f : Fault} : commit x = .fault f ↔ x = .error f := by
  cases x <;> simp [commit]

theorem commit_ne_refused {x : Except Fault State} {r : Refusal} : commit x ≠ .refused r := by
  cases x <;> simp [commit]

/-! ### Bytes and words -/

theorem toNat_joinBytes (hi lo : Byte) : (joinBytes hi lo).toNat = hi.toNat * 256 + lo.toNat := by
  have := hi.isLt; have := lo.isLt
  simp only [joinBytes, BitVec.toNat_ofNat]; omega

@[simp] theorem highByte_joinBytes (hi lo : Byte) : highByte (joinBytes hi lo) = hi := by
  apply BitVec.eq_of_toNat_eq
  have := hi.isLt; have := lo.isLt
  simp only [highByte, toNat_joinBytes, BitVec.toNat_ofNat]; omega

@[simp] theorem lowByte_joinBytes (hi lo : Byte) : lowByte (joinBytes hi lo) = lo := by
  apply BitVec.eq_of_toNat_eq
  have := hi.isLt; have := lo.isLt
  simp only [lowByte, toNat_joinBytes, BitVec.toNat_ofNat]; omega

@[simp] theorem joinBytes_high_low (v : Word) : joinBytes (highByte v) (lowByte v) = v := by
  apply BitVec.eq_of_toNat_eq
  have := v.isLt
  simp only [toNat_joinBytes, highByte, lowByte, BitVec.toNat_ofNat]; omega

/-! ### Reads and writes of the bus -/

theorem memRead_congr {s t : State} (hb : s.bootActive = t.bootActive) (hm : s.mem = t.mem) (x : Word) :
    memRead s x = memRead t x := by
  simp [memRead, hb, hm]

@[simp] theorem memRead_setPc (s : State) (v : Word) (x : Word) : memRead (s.setPc v) x = memRead s x := rfl
@[simp] theorem memRead_setSp (s : State) (v : Word) (x : Word) : memRead (s.setSp v) x = memRead s x := rfl
@[simp] theorem memRead_setFlags (s : State) (v : Flags) (x : Word) : memRead (s.setFlags v) x = memRead s x := rfl
@[simp] theorem memRead_setHalted (s : State) (v : Bool) (x : Word) : memRead (s.setHalted v) x = memRead s x := rfl

theorem memRead_eq_ok {s : State} {x : Word} {v : Byte} :
    memRead s x = .ok v ↔ ∃ arr off, route x s.bootActive = some (arr, off) ∧ s.mem.read arr off = v := by
  unfold memRead
  cases h : route x s.bootActive with
  | none => simp
  | some p => obtain ⟨arr, off⟩ := p; simp

theorem memRead_eq_error {s : State} {x : Word} {f : Fault} :
    memRead s x = .error f ↔ route x s.bootActive = none ∧ f = .addressOutOfRange x := by
  unfold memRead
  cases h : route x s.bootActive with
  | none => simp [eq_comm]
  | some p => simp

/-- A write that succeeds replaces the memory and nothing else. -/
theorem memWrite_eq_ok {s t : State} {x : Word} {v : Byte} :
    memWrite s x v = .ok t ↔
      ∃ arr off, route x s.bootActive = some (arr, off) ∧ t = s.setMem (s.mem.write arr off v) := by
  unfold memWrite
  cases h : route x s.bootActive with
  | none => simp
  | some p => obtain ⟨arr, off⟩ := p; simp [eq_comm]

theorem memWrite_eq_error {s : State} {x : Word} {v : Byte} {f : Fault} :
    memWrite s x v = .error f ↔ route x s.bootActive = none ∧ f = .addressOutOfRange x := by
  unfold memWrite
  cases h : route x s.bootActive with
  | none => simp [eq_comm]
  | some p => simp

/-- What a successful write leaves in every cell of the backing arrays. -/
theorem memWrite_frame {s t : State} {x : Word} {v : Byte} (h : memWrite s x v = .ok t) :
    t = s.setMem t.mem ∧
      ∀ arr off, route x s.bootActive ≠ some (arr, off) → t.mem.read arr off = s.mem.read arr off := by
  obtain ⟨arr, off, hr, rfl⟩ := memWrite_eq_ok.1 h
  refine ⟨rfl, fun arr' off' hne => ?_⟩
  exact Memory.read_write_other _ _ _ _ _ _ (fun e => hne (by rw [hr, e]))

theorem memWrite_keeps_wf {s t : State} {x : Word} {v : Byte} (h : memWrite s x v = .ok t) (hw : s.mem.wf = true) :
    t.mem.wf = true := by
  obtain ⟨arr, off, hr, rfl⟩ := memWrite_eq_ok.1 h
  exact Memory.wf_write hw (route_offset_lt hr) v

/-! ### Immediate words and the stack -/

theorem memRead16_eq_ok {s : State} {x v : Word} :
    memRead16 s x = .ok v ↔ ∃ lo hi, memRead s x = .ok lo ∧ memRead s (x + 1) = .ok hi ∧ v = joinBytes hi lo := by
  simp [memRead16, bind_eq_ok, @eq_comm Word v]

theorem memRead16_eq_error {s : State} {x : Word} {f : Fault} :
    memRead16 s x = .error f ↔
      memRead s x = .error f ∨ (∃ lo, memRead s x = .ok lo) ∧ memRead s (x + 1) = .error f := by
  simp [memRead16, bind_eq_error]

theorem push_eq_ok {s t : State} {v : Word} :
    push s v = .ok t ↔
      ∃ s1 s2, memWrite s (s.sp - 1) (highByte v) = .ok s1 ∧ memWrite s1 (s.sp - 2) (lowByte v) = .ok s2 ∧
        t = s2.setSp (s.sp - 2) := by
  simp [push, bind_eq_ok, @eq_comm State t]

/-- A successful push changes `sp` and the memory, and keeps its canonical form. -/
theorem push_frame {s t : State} {v : Word} (h : push s v = .ok t) :
    t = (s.setMem t.mem).setSp (s.sp - 2) ∧ (s.mem.wf = true → t.mem.wf = true) := by
  obtain ⟨s1, s2, h1, h2, rfl⟩ := push_eq_ok.1 h
  have e1 := (memWrite_frame h1).1
  have e2 := (memWrite_frame h2).1
  refine ⟨?_, fun hw => by simpa using memWrite_keeps_wf h2 (memWrite_keeps_wf h1 hw)⟩
  rw [e2, e1]; rfl

theorem pop_eq_ok {s t : State} {v : Word} :
    pop s = .ok (v, t) ↔
      ∃ lo hi, memRead s s.sp = .ok lo ∧ memRead s (s.sp + 1) = .ok hi ∧ v = joinBytes hi lo ∧
        t = s.setSp (s.sp + 2) := by
  simp [pop, bind_eq_ok, @eq_comm State t, @eq_comm Word v]

/-! ### Operands -/

theorem write8_frame {s t : State} {d : Dst8} {v : Byte} (h : write8 s d v = .ok t) :
    t.flags = s.flags ∧ t.pc = s.pc ∧ t.sp = s.sp ∧ t.halted = s.halted ∧ t.bootActive = s.bootActive ∧
      t.params = s.params ∧ (s.mem.wf = true → t.mem.wf = true) := by
  cases d with
  | reg r =>
    obtain rfl : s.setReg r v = t := by simpa [write8] using h
    simp
  | indHL =>
    have e := (memWrite_frame h).1
    have hw := memWrite_keeps_wf h
    rw [e]
    exact ⟨rfl, rfl, rfl, rfl, rfl, rfl, hw⟩

/-! Every error of a shared operation is the address error of an address no region covers (R223). -/
theorem read8_eq_error {s : State} {src : Src8} {f : Fault} (h : read8 s src = .error f) :
    ∃ x, route x s.bootActive = none ∧ f = .addressOutOfRange x := by
  cases src with
  | reg r => simp [read8] at h
  | indHL => exact ⟨_, memRead_eq_error.1 h⟩
  | imm8 => exact ⟨_, memRead_eq_error.1 h⟩

theorem write8_eq_error {s : State} {d : Dst8} {v : Byte} {f : Fault} (h : write8 s d v = .error f) :
    ∃ x, route x s.bootActive = none ∧ f = .addressOutOfRange x := by
  cases d with
  | reg r => cases h
  | indHL => exact ⟨_, memWrite_eq_error.1 h⟩

theorem imm16_eq_error {s : State} {f : Fault} (h : imm16 s = .error f) :
    ∃ x, route x s.bootActive = none ∧ f = .addressOutOfRange x := by
  rw [imm16, memRead16_eq_error] at h
  rcases h with h | ⟨_, h⟩ <;> exact ⟨_, memRead_eq_error.1 h⟩

theorem pop_eq_error {s : State} {f : Fault} (h : pop s = .error f) :
    ∃ x, route x s.bootActive = none ∧ f = .addressOutOfRange x := by
  simp only [pop, bind_eq_error, pure_eq_ok, reduceCtorEq, and_false, exists_false, or_false] at h
  rcases h with h | ⟨_, _, h⟩ <;> exact ⟨_, memRead_eq_error.1 h⟩

theorem push_eq_error {s : State} {v : Word} {f : Fault} (h : push s v = .error f) :
    ∃ x, route x s.bootActive = none ∧ f = .addressOutOfRange x := by
  simp only [push, bind_eq_error, pure_eq_ok, reduceCtorEq, and_false, exists_false, or_false] at h
  rcases h with h | ⟨s1, h1, h⟩
  · exact ⟨_, memWrite_eq_error.1 h⟩
  · have hs := memWrite_eq_error.1 h
    rw [(memWrite_frame h1).1] at hs
    exact ⟨_, hs⟩

/-! ### Arithmetic -/

theorem addCore_carry (mode : HcMode) (a v : Byte) : (addCore mode a v).2.c = true ↔ a.toNat + v.toNat > 0xFF := by
  simp [addCore]

theorem subCore_borrow (mode : HcMode) (a v : Byte) : (subCore mode a v).2.c = true ↔ a.toNat < v.toNat := by
  simp [subCore]

theorem addCore_half (a v : Byte) :
    (addCore .preOperand a v).2.h = true ↔ a.toNat % 16 + v.toNat % 16 > 0xF := by
  simp only [addCore, decide_eq_true_eq]
  exact Iff.rfl

theorem subCore_half (a v : Byte) :
    (subCore .preOperand a v).2.h = true ↔ a.toNat % 16 < v.toNat % 16 := by
  simp only [subCore, decide_eq_true_eq]
  exact Iff.rfl

theorem addCore_result (mode : HcMode) (a v : Byte) : (addCore mode a v).1 = a + v := by
  apply BitVec.eq_of_toNat_eq
  simp [addCore, BitVec.toNat_add]

theorem subCore_result (mode : HcMode) (a v : Byte) : (subCore mode a v).1 = a - v := by
  apply BitVec.eq_of_toNat_eq
  have := v.isLt
  simp only [subCore, BitVec.toNat_ofNat, BitVec.toNat_sub]
  omega

end Sys2Proof.Machine
end

