-- ==== Sys2Proof/Laws/Exec.lean ====
section
/-! SUPPORT. Every meaning is its family's shared operation on the selectors of its form (R204), so a proof over all 144
instructions is a proof over the eleven variants of R35. -/

namespace Sys2Proof.Machine

/-- The arm of R204 for each variant. -/
def execForm : Form → State → Outcome
  | .alu .add src, s => addA src s
  | .alu .adc src, s => adcA src s
  | .alu .sub src, s => subA src s
  | .alu .sbc src, s => sbcA src s
  | .ld8 dst src, s => loadByte dst src s
  | .ld16 dst, s => loadWord dst s
  | .push p, s => pushPair p s
  | .pop p, s => popPair p s
  | .jp cc, s => jump cc s
  | .call cc, s => callSub cc s
  | .ret cc, s => returnSub cc s
  | .swap dst, s => swapNibblesOf dst s
  | .halt, s => enterHalted s
  | .nop, s => advance s

/-- The dispatch table of R204. -/
theorem exec_eq_execForm (i : Instr) (s : State) : exec i s = execForm i.form s := by
  cases i <;> rfl

/-- No table row has the ill-formed variant (R94, R204). -/
theorem form_ne_load_indHL_indHL (i : Instr) : i.form ≠ .ld8 .indHL .indHL := by
  cases i <;> simp [Instr.form]

/-! ### The shared operations, for any operand -/

theorem arithmetic_eq_next {core : Byte → Byte → Byte × Flags} {src : Src8} {s t : State} :
    arithmetic core src s = .next t ↔
      ∃ v, read8 s src = .ok v ∧
        t = ((s.setReg .A (core s.a v).1).setFlags (core s.a v).2).setPc (s.pc + srcAdvance src) := by
  simp [arithmetic, commit_eq_next, bind_eq_ok, @eq_comm State t]

theorem loadByte_eq_next {dst : Dst8} {src : Src8} {s t : State} :
    loadByte dst src s = .next t ↔
      ∃ v u, read8 s src = .ok v ∧ write8 s dst v = .ok u ∧ t = u.setPc (s.pc + srcAdvance src) := by
  simp [loadByte, commit_eq_next, bind_eq_ok, @eq_comm State t]

theorem loadWord_eq_next {dst : Dst16} {s t : State} :
    loadWord dst s = .next t ↔ ∃ v, imm16 s = .ok v ∧ t = (s.setDst16 dst v).setPc (s.pc + 3) := by
  simp [loadWord, commit_eq_next, bind_eq_ok, @eq_comm State t]

theorem pushPair_eq_next {p : Pair} {s t : State} :
    pushPair p s = .next t ↔ ∃ u, push s (readPair s p) = .ok u ∧ t = u.setPc (s.pc + 1) := by
  simp [pushPair, commit_eq_next, bind_eq_ok, @eq_comm State t]

theorem popPair_eq_next {p : Pair} {s t : State} :
    popPair p s = .next t ↔ ∃ v u, pop s = .ok (v, u) ∧ t = (u.setPair p v).setPc (s.pc + 1) := by
  simp [popPair, commit_eq_next, bind_eq_ok, @eq_comm State t]

theorem jump_eq_next {cc : Cond} {s t : State} :
    jump cc s = .next t ↔
      (holds s.flags cc = true ∧ ∃ v, imm16 s = .ok v ∧ t = s.setPc v) ∨
        (holds s.flags cc = false ∧ t = s.setPc (s.pc + 3)) := by
  unfold jump
  cases h : holds s.flags cc <;> simp [commit_eq_next, bind_eq_ok, @eq_comm State t]

theorem callSub_eq_next {cc : Cond} {s t : State} :
    callSub cc s = .next t ↔
      (holds s.flags cc = true ∧ ∃ u v, push s (s.pc + 3) = .ok u ∧ imm16 u = .ok v ∧ t = u.setPc v) ∨
        (holds s.flags cc = false ∧ t = s.setPc (s.pc + 3)) := by
  unfold callSub
  cases h : holds s.flags cc <;> simp [commit_eq_next, bind_eq_ok, @eq_comm State t]

theorem returnSub_eq_next {cc : Cond} {s t : State} :
    returnSub cc s = .next t ↔
      (holds s.flags cc = true ∧ ∃ v u, pop s = .ok (v, u) ∧ t = u.setPc v) ∨
        (holds s.flags cc = false ∧ t = s.setPc (s.pc + 1)) := by
  unfold returnSub
  cases h : holds s.flags cc <;> simp [commit_eq_next, bind_eq_ok, @eq_comm State t]

theorem swapNibblesOf_eq_next {dst : Dst8} {s t : State} :
    swapNibblesOf dst s = .next t ↔
      ∃ v u, read8 s (srcOfDst dst) = .ok v ∧ write8 s dst (swapNibbles v) = .ok u ∧
        t = (u.setFlags (flagsAfterSwap s.params.swapFlags s.flags (swapNibbles v))).setPc (s.pc + 2) := by
  simp [swapNibblesOf, commit_eq_next, bind_eq_ok, @eq_comm State t]

/-- A write operand writes one register, or the memory and nothing else. -/
theorem write8_shape {s t : State} {d : Dst8} {v : Byte} (h : write8 s d v = .ok t) :
    (∃ r, d = .reg r ∧ t = s.setReg r v) ∨ (d = .indHL ∧ ∃ m, t = s.setMem m) := by
  cases d with
  | reg r => exact .inl ⟨r, rfl, by simpa [write8, eq_comm] using h⟩
  | indHL => exact .inr ⟨rfl, _, (memWrite_frame h).1⟩

theorem pop_shape {s t : State} {v : Word} (h : pop s = .ok (v, t)) : t = s.setSp (s.sp + 2) := by
  obtain ⟨_, _, _, _, _, h⟩ := pop_eq_ok.1 h
  exact h

/-- Everything an instruction that succeeds can do: the fields it writes, by its variant. -/
theorem exec_next_cases {i : Instr} {s t : State} (h : exec i s = .next t) :
    (∃ op src res f, i.form = .alu op src ∧ t = ((s.setReg .A res).setFlags f).setPc (s.pc + srcAdvance src)) ∨
    (∃ d src v u, i.form = .ld8 d src ∧ write8 s d v = .ok u ∧ t = u.setPc (s.pc + srcAdvance src)) ∨
    (∃ d v, i.form = .ld16 d ∧ t = (s.setDst16 d v).setPc (s.pc + 3)) ∨
    (∃ p v u, i.form = .push p ∧ push s v = .ok u ∧ t = u.setPc (s.pc + 1)) ∨
    (∃ p v, i.form = .pop p ∧ t = ((s.setSp (s.sp + 2)).setPair p v).setPc (s.pc + 1)) ∨
    (∃ cc v, i.form = .jp cc ∧ t = s.setPc v) ∨
    (∃ cc v w u, i.form = .call cc ∧ holds s.flags cc = true ∧ push s v = .ok u ∧ t = u.setPc w) ∨
    (∃ cc, i.form = .call cc ∧ holds s.flags cc = false ∧ t = s.setPc (s.pc + 3)) ∨
    (∃ cc v, i.form = .ret cc ∧ holds s.flags cc = true ∧ t = (s.setSp (s.sp + 2)).setPc v) ∨
    (∃ cc, i.form = .ret cc ∧ holds s.flags cc = false ∧ t = s.setPc (s.pc + 1)) ∨
    (∃ d v u, i.form = .swap d ∧ write8 s d v = .ok u ∧
      t = (u.setFlags (flagsAfterSwap s.params.swapFlags s.flags v)).setPc (s.pc + 2)) ∨
    (i.form = .halt ∧ t = (s.setHalted true).setPc (s.pc + 1)) ∨
    (i.form = .nop ∧ t = s.setPc (s.pc + 1)) := by
  rw [exec_eq_execForm] at h
  cases hf : i.form with
  | alu op src =>
    left
    cases op <;>
      · rw [hf] at h
        simp only [execForm, addA, adcA, subA, sbcA] at h
        obtain ⟨v, -, ht⟩ := arithmetic_eq_next.1 h
        exact ⟨_, _, _, _, rfl, ht⟩
  | ld8 d src =>
    rw [hf] at h; obtain ⟨v, u, _, hu, ht⟩ := loadByte_eq_next.1 h
    exact .inr (.inl ⟨d, src, v, u, rfl, hu, ht⟩)
  | ld16 d =>
    rw [hf] at h; obtain ⟨v, _, ht⟩ := loadWord_eq_next.1 h
    exact .inr (.inr (.inl ⟨d, v, rfl, ht⟩))
  | push p =>
    rw [hf] at h; obtain ⟨u, hu, ht⟩ := pushPair_eq_next.1 h
    exact .inr (.inr (.inr (.inl ⟨p, _, u, rfl, hu, ht⟩)))
  | pop p =>
    rw [hf] at h; obtain ⟨v, u, hu, ht⟩ := popPair_eq_next.1 h
    obtain rfl := pop_shape hu
    exact .inr (.inr (.inr (.inr (.inl ⟨p, v, rfl, ht⟩))))
  | jp cc =>
    rw [hf] at h
    rcases jump_eq_next.1 h with ⟨_, v, _, ht⟩ | ⟨_, ht⟩ <;>
      exact .inr (.inr (.inr (.inr (.inr (.inl ⟨cc, _, rfl, ht⟩)))))
  | call cc =>
    rw [hf] at h
    rcases callSub_eq_next.1 h with ⟨hc, u, v, hp, _, ht⟩ | ⟨hc, ht⟩
    · exact .inr (.inr (.inr (.inr (.inr (.inr (.inl ⟨cc, _, v, u, rfl, hc, hp, ht⟩))))))
    · exact .inr (.inr (.inr (.inr (.inr (.inr (.inr (.inl ⟨cc, rfl, hc, ht⟩)))))))
  | ret cc =>
    rw [hf] at h
    rcases returnSub_eq_next.1 h with ⟨hc, v, u, hp, ht⟩ | ⟨hc, ht⟩
    · obtain rfl := pop_shape hp
      exact .inr (.inr (.inr (.inr (.inr (.inr (.inr (.inr (.inl ⟨cc, _, rfl, hc, ht⟩))))))))
    · exact .inr (.inr (.inr (.inr (.inr (.inr (.inr (.inr (.inr (.inl ⟨cc, rfl, hc, ht⟩)))))))))
  | swap d =>
    rw [hf] at h; obtain ⟨v, u, _, hu, ht⟩ := swapNibblesOf_eq_next.1 h
    exact .inr (.inr (.inr (.inr (.inr (.inr (.inr (.inr (.inr (.inr (.inl ⟨d, _, u, rfl, hu, ht⟩))))))))))
  | halt =>
    rw [hf] at h
    have e := (Host.Outcome.next.inj h).symm
    exact .inr (.inr (.inr (.inr (.inr (.inr (.inr (.inr (.inr (.inr (.inr (.inl ⟨rfl, e⟩)))))))))))
  | nop =>
    rw [hf] at h
    have e := (Host.Outcome.next.inj h).symm
    exact .inr (.inr (.inr (.inr (.inr (.inr (.inr (.inr (.inr (.inr (.inr (.inr ⟨rfl, e⟩)))))))))))

/-- Every error an instruction can return is the address error of an address no region covers (R223). -/
theorem exec_fault {i : Instr} {s : State} {f : Fault} (h : exec i s = .fault f) :
    ∃ x, route x s.bootActive = none ∧ f = .addressOutOfRange x := by
  rw [exec_eq_execForm] at h
  cases hf : i.form with
  | alu op src =>
    rw [hf] at h
    cases op <;>
      · simp only [execForm, addA, adcA, subA, sbcA, arithmetic, commit_eq_fault, bind_eq_error, pure_eq_ok,
          reduceCtorEq, and_false, exists_false, or_false] at h
        exact read8_eq_error h
  | ld8 d src =>
    simp only [hf, execForm, loadByte, commit_eq_fault, bind_eq_error, pure_eq_ok, reduceCtorEq, and_false,
      exists_false, or_false] at h
    rcases h with h | ⟨_, _, h⟩
    · exact read8_eq_error h
    · exact write8_eq_error h
  | ld16 d =>
    simp only [hf, execForm, loadWord, commit_eq_fault, bind_eq_error, pure_eq_ok, reduceCtorEq, and_false,
      exists_false, or_false] at h
    exact imm16_eq_error h
  | push p =>
    simp only [hf, execForm, pushPair, commit_eq_fault, bind_eq_error, pure_eq_ok, reduceCtorEq, and_false,
      exists_false, or_false] at h
    exact push_eq_error h
  | pop p =>
    simp only [hf, execForm, popPair, commit_eq_fault, bind_eq_error, pure_eq_ok, reduceCtorEq, and_false,
      exists_false, or_false] at h
    exact pop_eq_error h
  | jp cc =>
    simp only [hf, execForm, jump, commit_eq_fault] at h
    split at h
    · simp only [bind_eq_error, pure_eq_ok, reduceCtorEq, and_false, exists_false, or_false] at h
      exact imm16_eq_error h
    · cases h
  | call cc =>
    simp only [hf, execForm, callSub, commit_eq_fault] at h
    split at h
    · simp only [bind_eq_error, pure_eq_ok, reduceCtorEq, and_false, exists_false, or_false] at h
      rcases h with h | ⟨t, ht, h⟩
      · exact push_eq_error h
      · have he := imm16_eq_error h
        rw [(push_frame ht).1] at he
        exact he
    · cases h
  | ret cc =>
    simp only [hf, execForm, returnSub, commit_eq_fault] at h
    split at h
    · simp only [bind_eq_error, pure_eq_ok, reduceCtorEq, and_false, exists_false, or_false] at h
      exact pop_eq_error h
    · cases h
  | swap d =>
    simp only [hf, execForm, swapNibblesOf, commit_eq_fault, bind_eq_error, pure_eq_ok, reduceCtorEq, and_false,
      exists_false, or_false] at h
    rcases h with h | ⟨_, _, h⟩
    · exact read8_eq_error h
    · exact write8_eq_error h
  | halt => rw [hf] at h; cases h
  | nop => rw [hf] at h; cases h

/-- No instruction is refused. -/
theorem exec_ne_refused (i : Instr) (s : State) (r : Refusal) : exec i s ≠ .refused r := by
  rw [exec_eq_execForm]
  cases i.form with
  | alu op src => cases op <;> exact commit_ne_refused
  | halt => exact fun h => by cases h
  | nop => exact fun h => by cases h
  | _ => exact commit_ne_refused

/-! ### One step -/

/-- Everything a step that succeeds can be: the halted no-op (R203), or one fetched instruction (R202). -/
theorem step_eq_next {s t : State} :
    step s = .next t ↔
      (s.halted = true ∧ t = s) ∨ (s.halted = false ∧ ∃ i, fetch s = .ok i ∧ exec i s = .next t) := by
  unfold step
  cases h : s.halted
  · cases hf : fetch s <;> simp
  · simp [eq_comm]

theorem step_eq_fault {s : State} {f : Fault} :
    step s = .fault f ↔
      s.halted = false ∧ (fetch s = .error f ∨ ∃ i, fetch s = .ok i ∧ exec i s = .fault f) := by
  unfold step
  cases h : s.halted
  · cases hf : fetch s <;> simp
  · simp

end Sys2Proof.Machine
end

