-- ==== Sys2Proof/Laws/PerInstr.lean ====
section
/-! SUPPORT. The shape of every instruction's encoding, one lemma per constructor (R80, R90): the operation bytes and the
operand bytes make up the length, which is 1, 2 or 3, and the 0xCB escape begins exactly the SWAP encodings (R89). -/

namespace Sys2Proof.Laws.EncodingShape

/-- The encoding of `i` has its format's shape (R80). -/
def Statement (i : Instr) : Prop :=
  i.wellFormed = true ∧ (encode i).length + i.operandBytes = i.length ∧ 1 ≤ i.length ∧ i.length ≤ 3 ∧
    ((encode i).head? = some prefixEscape ↔ (encode i).length = 2)

theorem nop : Statement .nop := by unfold Statement; decide
theorem ld_BC_d16 : Statement .ld_BC_d16 := by unfold Statement; decide
theorem ld_B_d8 : Statement .ld_B_d8 := by unfold Statement; decide
theorem ld_C_d8 : Statement .ld_C_d8 := by unfold Statement; decide
theorem ld_DE_d16 : Statement .ld_DE_d16 := by unfold Statement; decide
theorem ld_D_d8 : Statement .ld_D_d8 := by unfold Statement; decide
theorem ld_E_d8 : Statement .ld_E_d8 := by unfold Statement; decide
theorem ld_HL_d16 : Statement .ld_HL_d16 := by unfold Statement; decide
theorem ld_H_d8 : Statement .ld_H_d8 := by unfold Statement; decide
theorem ld_L_d8 : Statement .ld_L_d8 := by unfold Statement; decide
theorem ld_SP_d16 : Statement .ld_SP_d16 := by unfold Statement; decide
theorem ld_indHL_d8 : Statement .ld_indHL_d8 := by unfold Statement; decide
theorem ld_A_d8 : Statement .ld_A_d8 := by unfold Statement; decide
theorem ld_B_B : Statement .ld_B_B := by unfold Statement; decide
theorem ld_B_C : Statement .ld_B_C := by unfold Statement; decide
theorem ld_B_D : Statement .ld_B_D := by unfold Statement; decide
theorem ld_B_E : Statement .ld_B_E := by unfold Statement; decide
theorem ld_B_H : Statement .ld_B_H := by unfold Statement; decide
theorem ld_B_L : Statement .ld_B_L := by unfold Statement; decide
theorem ld_B_indHL : Statement .ld_B_indHL := by unfold Statement; decide
theorem ld_B_A : Statement .ld_B_A := by unfold Statement; decide
theorem ld_C_B : Statement .ld_C_B := by unfold Statement; decide
theorem ld_C_C : Statement .ld_C_C := by unfold Statement; decide
theorem ld_C_D : Statement .ld_C_D := by unfold Statement; decide
theorem ld_C_E : Statement .ld_C_E := by unfold Statement; decide
theorem ld_C_H : Statement .ld_C_H := by unfold Statement; decide
theorem ld_C_L : Statement .ld_C_L := by unfold Statement; decide
theorem ld_C_indHL : Statement .ld_C_indHL := by unfold Statement; decide
theorem ld_C_A : Statement .ld_C_A := by unfold Statement; decide
theorem ld_D_B : Statement .ld_D_B := by unfold Statement; decide
theorem ld_D_C : Statement .ld_D_C := by unfold Statement; decide
theorem ld_D_D : Statement .ld_D_D := by unfold Statement; decide
theorem ld_D_E : Statement .ld_D_E := by unfold Statement; decide
theorem ld_D_H : Statement .ld_D_H := by unfold Statement; decide
theorem ld_D_L : Statement .ld_D_L := by unfold Statement; decide
theorem ld_D_indHL : Statement .ld_D_indHL := by unfold Statement; decide
theorem ld_D_A : Statement .ld_D_A := by unfold Statement; decide
theorem ld_E_B : Statement .ld_E_B := by unfold Statement; decide
theorem ld_E_C : Statement .ld_E_C := by unfold Statement; decide
theorem ld_E_D : Statement .ld_E_D := by unfold Statement; decide
theorem ld_E_E : Statement .ld_E_E := by unfold Statement; decide
theorem ld_E_H : Statement .ld_E_H := by unfold Statement; decide
theorem ld_E_L : Statement .ld_E_L := by unfold Statement; decide
theorem ld_E_indHL : Statement .ld_E_indHL := by unfold Statement; decide
theorem ld_E_A : Statement .ld_E_A := by unfold Statement; decide
theorem ld_H_B : Statement .ld_H_B := by unfold Statement; decide
theorem ld_H_C : Statement .ld_H_C := by unfold Statement; decide
theorem ld_H_D : Statement .ld_H_D := by unfold Statement; decide
theorem ld_H_E : Statement .ld_H_E := by unfold Statement; decide
theorem ld_H_H : Statement .ld_H_H := by unfold Statement; decide
theorem ld_H_L : Statement .ld_H_L := by unfold Statement; decide
theorem ld_H_indHL : Statement .ld_H_indHL := by unfold Statement; decide
theorem ld_H_A : Statement .ld_H_A := by unfold Statement; decide
theorem ld_L_B : Statement .ld_L_B := by unfold Statement; decide
theorem ld_L_C : Statement .ld_L_C := by unfold Statement; decide
theorem ld_L_D : Statement .ld_L_D := by unfold Statement; decide
theorem ld_L_E : Statement .ld_L_E := by unfold Statement; decide
theorem ld_L_H : Statement .ld_L_H := by unfold Statement; decide
theorem ld_L_L : Statement .ld_L_L := by unfold Statement; decide
theorem ld_L_indHL : Statement .ld_L_indHL := by unfold Statement; decide
theorem ld_L_A : Statement .ld_L_A := by unfold Statement; decide
theorem ld_indHL_B : Statement .ld_indHL_B := by unfold Statement; decide
theorem ld_indHL_C : Statement .ld_indHL_C := by unfold Statement; decide
theorem ld_indHL_D : Statement .ld_indHL_D := by unfold Statement; decide
theorem ld_indHL_E : Statement .ld_indHL_E := by unfold Statement; decide
theorem ld_indHL_H : Statement .ld_indHL_H := by unfold Statement; decide
theorem ld_indHL_L : Statement .ld_indHL_L := by unfold Statement; decide
theorem halt : Statement .halt := by unfold Statement; decide
theorem ld_indHL_A : Statement .ld_indHL_A := by unfold Statement; decide
theorem ld_A_B : Statement .ld_A_B := by unfold Statement; decide
theorem ld_A_C : Statement .ld_A_C := by unfold Statement; decide
theorem ld_A_D : Statement .ld_A_D := by unfold Statement; decide
theorem ld_A_E : Statement .ld_A_E := by unfold Statement; decide
theorem ld_A_H : Statement .ld_A_H := by unfold Statement; decide
theorem ld_A_L : Statement .ld_A_L := by unfold Statement; decide
theorem ld_A_indHL : Statement .ld_A_indHL := by unfold Statement; decide
theorem ld_A_A : Statement .ld_A_A := by unfold Statement; decide
theorem add_A_B : Statement .add_A_B := by unfold Statement; decide
theorem add_A_C : Statement .add_A_C := by unfold Statement; decide
theorem add_A_D : Statement .add_A_D := by unfold Statement; decide
theorem add_A_E : Statement .add_A_E := by unfold Statement; decide
theorem add_A_H : Statement .add_A_H := by unfold Statement; decide
theorem add_A_L : Statement .add_A_L := by unfold Statement; decide
theorem add_A_indHL : Statement .add_A_indHL := by unfold Statement; decide
theorem add_A_A : Statement .add_A_A := by unfold Statement; decide
theorem adc_A_B : Statement .adc_A_B := by unfold Statement; decide
theorem adc_A_C : Statement .adc_A_C := by unfold Statement; decide
theorem adc_A_D : Statement .adc_A_D := by unfold Statement; decide
theorem adc_A_E : Statement .adc_A_E := by unfold Statement; decide
theorem adc_A_H : Statement .adc_A_H := by unfold Statement; decide
theorem adc_A_L : Statement .adc_A_L := by unfold Statement; decide
theorem adc_A_indHL : Statement .adc_A_indHL := by unfold Statement; decide
theorem adc_A_A : Statement .adc_A_A := by unfold Statement; decide
theorem sub_A_B : Statement .sub_A_B := by unfold Statement; decide
theorem sub_A_C : Statement .sub_A_C := by unfold Statement; decide
theorem sub_A_D : Statement .sub_A_D := by unfold Statement; decide
theorem sub_A_E : Statement .sub_A_E := by unfold Statement; decide
theorem sub_A_H : Statement .sub_A_H := by unfold Statement; decide
theorem sub_A_L : Statement .sub_A_L := by unfold Statement; decide
theorem sub_A_indHL : Statement .sub_A_indHL := by unfold Statement; decide
theorem sub_A_A : Statement .sub_A_A := by unfold Statement; decide
theorem sbc_A_B : Statement .sbc_A_B := by unfold Statement; decide
theorem sbc_A_C : Statement .sbc_A_C := by unfold Statement; decide
theorem sbc_A_D : Statement .sbc_A_D := by unfold Statement; decide
theorem sbc_A_E : Statement .sbc_A_E := by unfold Statement; decide
theorem sbc_A_H : Statement .sbc_A_H := by unfold Statement; decide
theorem sbc_A_L : Statement .sbc_A_L := by unfold Statement; decide
theorem sbc_A_indHL : Statement .sbc_A_indHL := by unfold Statement; decide
theorem sbc_A_A : Statement .sbc_A_A := by unfold Statement; decide
theorem ret_NZ : Statement .ret_NZ := by unfold Statement; decide
theorem pop_BC : Statement .pop_BC := by unfold Statement; decide
theorem jp_NZ_a16 : Statement .jp_NZ_a16 := by unfold Statement; decide
theorem jp_a16 : Statement .jp_a16 := by unfold Statement; decide
theorem call_NZ_a16 : Statement .call_NZ_a16 := by unfold Statement; decide
theorem push_BC : Statement .push_BC := by unfold Statement; decide
theorem add_A_d8 : Statement .add_A_d8 := by unfold Statement; decide
theorem ret_Z : Statement .ret_Z := by unfold Statement; decide
theorem ret : Statement .ret := by unfold Statement; decide
theorem jp_Z_a16 : Statement .jp_Z_a16 := by unfold Statement; decide
theorem call_Z_a16 : Statement .call_Z_a16 := by unfold Statement; decide
theorem call_a16 : Statement .call_a16 := by unfold Statement; decide
theorem adc_A_d8 : Statement .adc_A_d8 := by unfold Statement; decide
theorem ret_NC : Statement .ret_NC := by unfold Statement; decide
theorem pop_DE : Statement .pop_DE := by unfold Statement; decide
theorem jp_NC_a16 : Statement .jp_NC_a16 := by unfold Statement; decide
theorem call_NC_a16 : Statement .call_NC_a16 := by unfold Statement; decide
theorem push_DE : Statement .push_DE := by unfold Statement; decide
theorem sub_A_d8 : Statement .sub_A_d8 := by unfold Statement; decide
theorem ret_C : Statement .ret_C := by unfold Statement; decide
theorem jp_C_a16 : Statement .jp_C_a16 := by unfold Statement; decide
theorem call_C_a16 : Statement .call_C_a16 := by unfold Statement; decide
theorem sbc_A_d8 : Statement .sbc_A_d8 := by unfold Statement; decide
theorem pop_HL : Statement .pop_HL := by unfold Statement; decide
theorem push_HL : Statement .push_HL := by unfold Statement; decide
theorem pop_AF : Statement .pop_AF := by unfold Statement; decide
theorem push_AF : Statement .push_AF := by unfold Statement; decide
theorem swap_B : Statement .swap_B := by unfold Statement; decide
theorem swap_C : Statement .swap_C := by unfold Statement; decide
theorem swap_D : Statement .swap_D := by unfold Statement; decide
theorem swap_E : Statement .swap_E := by unfold Statement; decide
theorem swap_H : Statement .swap_H := by unfold Statement; decide
theorem swap_L : Statement .swap_L := by unfold Statement; decide
theorem swap_indHL : Statement .swap_indHL := by unfold Statement; decide
theorem swap_A : Statement .swap_A := by unfold Statement; decide

end Sys2Proof.Laws.EncodingShape
end

