-- ==== Sys2Proof/Laws/Step.lean ====
section
/-! SUPPORT. What a fetch answers for the bytes it finds, what an access answers at a mapped and at an unmapped address, and
what one bus write does to every later read. -/

namespace Sys2Proof.Machine

open Sys2Proof.Safety

/-! ### Mapped and unmapped addresses -/

/-- R55: no region covers an address exactly when it lies in the gap or is 0xFFFF. -/
theorem route_eq_none (x : Word) (ba : Bool) :
    route x ba = none ↔ (0xFE00 ≤ x.toNat ∧ x.toNat ≤ 0xFF7F) ∨ x.toNat = 0xFFFF := by
  have hx := x.isLt
  simp only [route]
  split
  · rename_i h
    simp only [Bool.and_eq_true, decide_eq_true_eq] at h
    simp only [reduceCtorEq, false_iff]; omega
  · repeat' split
    all_goals simp only [reduceCtorEq, false_iff, true_iff]
    all_goals omega

theorem mapped_eq_false {s : State} {x : Word} : mapped s x = false ↔ route x s.bootActive = none := by
  simp [mapped]

theorem mapped_eq_true {s : State} {x : Word} :
    mapped s x = true ↔ ∃ arr off, route x s.bootActive = some (arr, off) := by
  unfold mapped
  cases h : route x s.bootActive with
  | none => simp
  | some p => obtain ⟨arr, off⟩ := p; simp

theorem memRead_of_unmapped {s : State} {x : Word} (h : mapped s x = false) :
    memRead s x = .error (.addressOutOfRange x) :=
  memRead_eq_error.2 ⟨mapped_eq_false.1 h, rfl⟩

theorem memWrite_of_unmapped {s : State} {x : Word} (v : Byte) (h : mapped s x = false) :
    memWrite s x v = .error (.addressOutOfRange x) :=
  memWrite_eq_error.2 ⟨mapped_eq_false.1 h, rfl⟩

theorem memRead_of_mapped {s : State} {x : Word} (h : mapped s x = true) : ∃ v, memRead s x = .ok v := by
  obtain ⟨arr, off, hr⟩ := mapped_eq_true.1 h
  exact ⟨_, memRead_eq_ok.2 ⟨arr, off, hr, rfl⟩⟩

theorem memWrite_of_mapped {s : State} {x : Word} (v : Byte) (h : mapped s x = true) :
    ∃ m, memWrite s x v = .ok (s.setMem m) := by
  obtain ⟨arr, off, hr⟩ := mapped_eq_true.1 h
  exact ⟨_, memWrite_eq_ok.2 ⟨arr, off, hr, rfl⟩⟩

theorem mapped_of_memRead {s : State} {x : Word} {v : Byte} (h : memRead s x = .ok v) : mapped s x = true := by
  obtain ⟨arr, off, hr, -⟩ := memRead_eq_ok.1 h
  exact mapped_eq_true.2 ⟨arr, off, hr⟩

/-! ### One write against every later read -/

/-- Reading any address after a write: the byte written at every address of that byte, and the old byte elsewhere. -/
theorem memRead_after_memWrite {s : State} {x y : Word} {v : Byte} {m : Memory} (hw : s.mem.wf = true)
    (h : memWrite s x v = .ok (s.setMem m)) :
    memRead (s.setMem m) y = if sameByte s x y then .ok v else memRead s y := by
  obtain ⟨arr, off, hr, e⟩ := memWrite_eq_ok.1 h
  have hm : m = s.mem.write arr off v := congrArg State.mem e
  subst hm
  simp only [sameByte, hr, memRead, State.setMem_bootActive, State.setMem_mem]
  cases hy : route y s.bootActive with
  | none => simp
  | some p =>
    obtain ⟨arr', off'⟩ := p
    by_cases he : (arr, off) = (arr', off')
    · obtain ⟨rfl, rfl⟩ := Prod.mk.inj he
      simp [Memory.read_write_same hw]
    · have hne : (some (arr, off) == some (arr', off')) = false := by simpa using he
      simp only [hne, Bool.false_eq_true, if_false, Memory.read_write_other _ _ _ _ _ _ he]

/-! ### Fetch -/

theorem fetch_plain {s : State} {b : Byte} (h : memRead s s.pc = .ok b) (hb : b ≠ prefixEscape) :
    fetch s = decodeOrRaise b .plain := by
  simp only [fetch, h, ok_bind, if_neg hb]

theorem fetch_prefixed {s : State} {b : Byte} (h : memRead s s.pc = .ok prefixEscape)
    (h1 : memRead s (s.pc + 1) = .ok b) : fetch s = decodeOrRaise b .prefixed := by
  simp only [fetch, h, h1, ok_bind, if_true]

theorem fetch_error_first {s : State} {f : Fault} (h : memRead s s.pc = .error f) : fetch s = .error f := by
  simp only [fetch, h, error_bind]

theorem fetch_error_second {s : State} {f : Fault} (h : memRead s s.pc = .ok prefixEscape)
    (h1 : memRead s (s.pc + 1) = .error f) : fetch s = .error f := by
  simp only [fetch, h, h1, ok_bind, error_bind, if_true]

theorem decodeOrRaise_some {b : Byte} {page : Page} {i : Instr} (h : decodeByte b (page == .prefixed) = some i) :
    decodeOrRaise b page = .ok i := by
  simp [decodeOrRaise, h]

theorem decodeOrRaise_none {b : Byte} {page : Page} (h : decodeByte b (page == .prefixed) = none) :
    decodeOrRaise b page = .error (.unimplementedOpcode b page) := by
  simp [decodeOrRaise, h]

/-- Every error a fetch can return. -/
theorem fetch_eq_error {s : State} {f : Fault} (h : fetch s = .error f) :
    (∃ x, route x s.bootActive = none ∧ f = .addressOutOfRange x) ∨
      ∃ b page, f = .unimplementedOpcode b page ∧ decodeByte b (page == .prefixed) = none := by
  have hd : ∀ b page, decodeOrRaise b page = .error f →
      f = .unimplementedOpcode b page ∧ decodeByte b (page == .prefixed) = none := by
    intro b page hb
    cases hdec : decodeByte b (page == .prefixed) with
    | some i => rw [decodeOrRaise_some hdec] at hb; cases hb
    | none => rw [decodeOrRaise_none hdec] at hb; exact ⟨(Except.error.inj hb).symm, rfl⟩
  cases h0 : memRead s s.pc with
  | error g =>
    rw [fetch_error_first h0] at h
    obtain rfl := Except.error.inj h
    exact .inl ⟨_, memRead_eq_error.1 h0⟩
  | ok b =>
    by_cases hb : b = prefixEscape
    · subst hb
      cases h1 : memRead s (s.pc + 1) with
      | error g =>
        rw [fetch_error_second h0 h1] at h
        obtain rfl := Except.error.inj h
        exact .inl ⟨_, memRead_eq_error.1 h1⟩
      | ok b1 => rw [fetch_prefixed h0 h1] at h; exact .inr ⟨_, _, hd _ _ h⟩
    · rw [fetch_plain h0 hb] at h; exact .inr ⟨_, _, hd _ _ h⟩

theorem step_of_fetch {s : State} {i : Instr} (hh : s.halted = false) (h : fetch s = .ok i) : step s = exec i s := by
  simp [step, hh, h]

theorem step_of_fetch_error {s : State} {f : Fault} (hh : s.halted = false) (h : fetch s = .error f) :
    step s = .fault f := by
  simp [step, hh, h]

end Sys2Proof.Machine
end

