-- ==== Sys2Proof/Tests/Slice0.lean ====
section
/-! SUPPORT. The model's own tests. Expected results are the spec's: the opcode maps of 30_encoding.md and the vectors of
95_test_vectors.md (A, L, S, J, X, C, M, K, W), each named in its docstring. After them, a witness for each statement's
hypotheses. -/

namespace Sys2Proof.Tests

open Sys2Proof.Machine Sys2Proof.Safety

/-! ### Helpers -/

/-- The freshly constructed machine with `pc` set and these bytes placed there. -/
def running (pc : Word) (bytes : List Byte) : State :=
  placeBytes { State.reset with pc := pc } pc bytes

/-- Four flags as the vectors write them, `ZNHC=abcd`. -/
def znhc (z n h c : Nat) : Flags :=
  ⟨z == 1, n == 1, h == 1, c == 1⟩

def nextIs (o : Outcome) (p : State → Bool) : Bool :=
  match o with
  | .next t => p t
  | _ => false

def faultIs (o : Outcome) (f : Fault) : Bool :=
  match o with
  | .fault g => g == f
  | _ => false

def byteIs (s : State) (x : Word) (v : Byte) : Bool :=
  match memRead s x with
  | .ok w => w == v
  | .error _ => false

def readFails (s : State) (x : Word) : Bool :=
  match memRead s x with
  | .ok _ => false
  | .error f => f == .addressOutOfRange x

theorem read_iff {s : State} {x : Word} {v : Byte} : memRead s x = .ok v ↔ byteIs s x v = true := by
  unfold byteIs
  cases memRead s x <;> simp

theorem fault_iff {o : Outcome} {f : Fault} : o = .fault f ↔ faultIs o f = true := by
  cases o <;> simp [faultIs]

theorem next_iff {o : Outcome} : (∃ t, o = .next t) ↔ nextIs o (fun _ => true) = true := by
  cases o <;> simp [nextIs]

/-! ### Well-formedness (R94, R204) -/

/-- The load from `(HL)` to `(HL)` has no encoding. -/
theorem test_ill_formed_refused : formWellFormed (.ld8 .indHL .indHL) = false := by decide

theorem test_well_formed_neighbours :
    formWellFormed (.ld8 .indHL .imm8) = true ∧ formWellFormed (.ld8 .indHL (.reg .H)) = true ∧
      formWellFormed (.ld8 (.reg .H) .indHL) = true ∧ Instr.halt.wellFormed = true := by decide

/-! ### Decoding: every row of the opcode map of R91, and R93 -/

/-- Row 0x. -/
theorem test_map_row_0x :
    decodeByte 0b00000000 false = some .nop ∧
      decodeByte 0b00000001 false = some .ld_BC_d16 ∧
      decodeByte 0b00000110 false = some .ld_B_d8 ∧
      decodeByte 0b00001110 false = some .ld_C_d8 ∧
      (∀ b ∈ ([0x02, 0x03, 0x04, 0x05, 0x07, 0x08, 0x09, 0x0A, 0x0B, 0x0C, 0x0D, 0x0F] : List Byte),
        decodeByte b false = none) := by decide

/-- Row 1x. -/
theorem test_map_row_1x :
    decodeByte 0b00010001 false = some .ld_DE_d16 ∧
      decodeByte 0b00010110 false = some .ld_D_d8 ∧
      decodeByte 0b00011110 false = some .ld_E_d8 ∧
      (∀ b ∈ ([0x10, 0x12, 0x13, 0x14, 0x15, 0x17, 0x18, 0x19, 0x1A, 0x1B, 0x1C, 0x1D, 0x1F] : List Byte),
        decodeByte b false = none) := by decide

/-- Row 2x. -/
theorem test_map_row_2x :
    decodeByte 0b00100001 false = some .ld_HL_d16 ∧
      decodeByte 0b00100110 false = some .ld_H_d8 ∧
      decodeByte 0b00101110 false = some .ld_L_d8 ∧
      (∀ b ∈ ([0x20, 0x22, 0x23, 0x24, 0x25, 0x27, 0x28, 0x29, 0x2A, 0x2B, 0x2C, 0x2D, 0x2F] : List Byte),
        decodeByte b false = none) := by decide

/-- Row 3x. -/
theorem test_map_row_3x :
    decodeByte 0b00110001 false = some .ld_SP_d16 ∧
      decodeByte 0b00110110 false = some .ld_indHL_d8 ∧
      decodeByte 0b00111110 false = some .ld_A_d8 ∧
      (∀ b ∈ ([0x30, 0x32, 0x33, 0x34, 0x35, 0x37, 0x38, 0x39, 0x3A, 0x3B, 0x3C, 0x3D, 0x3F] : List Byte),
        decodeByte b false = none) := by decide

/-- Row 4x. -/
theorem test_map_row_4x :
    decodeByte 0b01000000 false = some .ld_B_B ∧
      decodeByte 0b01000001 false = some .ld_B_C ∧
      decodeByte 0b01000010 false = some .ld_B_D ∧
      decodeByte 0b01000011 false = some .ld_B_E ∧
      decodeByte 0b01000100 false = some .ld_B_H ∧
      decodeByte 0b01000101 false = some .ld_B_L ∧
      decodeByte 0b01000110 false = some .ld_B_indHL ∧
      decodeByte 0b01000111 false = some .ld_B_A ∧
      decodeByte 0b01001000 false = some .ld_C_B ∧
      decodeByte 0b01001001 false = some .ld_C_C ∧
      decodeByte 0b01001010 false = some .ld_C_D ∧
      decodeByte 0b01001011 false = some .ld_C_E ∧
      decodeByte 0b01001100 false = some .ld_C_H ∧
      decodeByte 0b01001101 false = some .ld_C_L ∧
      decodeByte 0b01001110 false = some .ld_C_indHL ∧
      decodeByte 0b01001111 false = some .ld_C_A := by decide

/-- Row 5x. -/
theorem test_map_row_5x :
    decodeByte 0b01010000 false = some .ld_D_B ∧
      decodeByte 0b01010001 false = some .ld_D_C ∧
      decodeByte 0b01010010 false = some .ld_D_D ∧
      decodeByte 0b01010011 false = some .ld_D_E ∧
      decodeByte 0b01010100 false = some .ld_D_H ∧
      decodeByte 0b01010101 false = some .ld_D_L ∧
      decodeByte 0b01010110 false = some .ld_D_indHL ∧
      decodeByte 0b01010111 false = some .ld_D_A ∧
      decodeByte 0b01011000 false = some .ld_E_B ∧
      decodeByte 0b01011001 false = some .ld_E_C ∧
      decodeByte 0b01011010 false = some .ld_E_D ∧
      decodeByte 0b01011011 false = some .ld_E_E ∧
      decodeByte 0b01011100 false = some .ld_E_H ∧
      decodeByte 0b01011101 false = some .ld_E_L ∧
      decodeByte 0b01011110 false = some .ld_E_indHL ∧
      decodeByte 0b01011111 false = some .ld_E_A := by decide

/-- Row 6x. -/
theorem test_map_row_6x :
    decodeByte 0b01100000 false = some .ld_H_B ∧
      decodeByte 0b01100001 false = some .ld_H_C ∧
      decodeByte 0b01100010 false = some .ld_H_D ∧
      decodeByte 0b01100011 false = some .ld_H_E ∧
      decodeByte 0b01100100 false = some .ld_H_H ∧
      decodeByte 0b01100101 false = some .ld_H_L ∧
      decodeByte 0b01100110 false = some .ld_H_indHL ∧
      decodeByte 0b01100111 false = some .ld_H_A ∧
      decodeByte 0b01101000 false = some .ld_L_B ∧
      decodeByte 0b01101001 false = some .ld_L_C ∧
      decodeByte 0b01101010 false = some .ld_L_D ∧
      decodeByte 0b01101011 false = some .ld_L_E ∧
      decodeByte 0b01101100 false = some .ld_L_H ∧
      decodeByte 0b01101101 false = some .ld_L_L ∧
      decodeByte 0b01101110 false = some .ld_L_indHL ∧
      decodeByte 0b01101111 false = some .ld_L_A := by decide

/-- Row 7x. -/
theorem test_map_row_7x :
    decodeByte 0b01110000 false = some .ld_indHL_B ∧
      decodeByte 0b01110001 false = some .ld_indHL_C ∧
      decodeByte 0b01110010 false = some .ld_indHL_D ∧
      decodeByte 0b01110011 false = some .ld_indHL_E ∧
      decodeByte 0b01110100 false = some .ld_indHL_H ∧
      decodeByte 0b01110101 false = some .ld_indHL_L ∧
      decodeByte 0b01110110 false = some .halt ∧
      decodeByte 0b01110111 false = some .ld_indHL_A ∧
      decodeByte 0b01111000 false = some .ld_A_B ∧
      decodeByte 0b01111001 false = some .ld_A_C ∧
      decodeByte 0b01111010 false = some .ld_A_D ∧
      decodeByte 0b01111011 false = some .ld_A_E ∧
      decodeByte 0b01111100 false = some .ld_A_H ∧
      decodeByte 0b01111101 false = some .ld_A_L ∧
      decodeByte 0b01111110 false = some .ld_A_indHL ∧
      decodeByte 0b01111111 false = some .ld_A_A := by decide

/-- Row 8x. -/
theorem test_map_row_8x :
    decodeByte 0b10000000 false = some .add_A_B ∧
      decodeByte 0b10000001 false = some .add_A_C ∧
      decodeByte 0b10000010 false = some .add_A_D ∧
      decodeByte 0b10000011 false = some .add_A_E ∧
      decodeByte 0b10000100 false = some .add_A_H ∧
      decodeByte 0b10000101 false = some .add_A_L ∧
      decodeByte 0b10000110 false = some .add_A_indHL ∧
      decodeByte 0b10000111 false = some .add_A_A ∧
      decodeByte 0b10001000 false = some .adc_A_B ∧
      decodeByte 0b10001001 false = some .adc_A_C ∧
      decodeByte 0b10001010 false = some .adc_A_D ∧
      decodeByte 0b10001011 false = some .adc_A_E ∧
      decodeByte 0b10001100 false = some .adc_A_H ∧
      decodeByte 0b10001101 false = some .adc_A_L ∧
      decodeByte 0b10001110 false = some .adc_A_indHL ∧
      decodeByte 0b10001111 false = some .adc_A_A := by decide

/-- Row 9x. -/
theorem test_map_row_9x :
    decodeByte 0b10010000 false = some .sub_A_B ∧
      decodeByte 0b10010001 false = some .sub_A_C ∧
      decodeByte 0b10010010 false = some .sub_A_D ∧
      decodeByte 0b10010011 false = some .sub_A_E ∧
      decodeByte 0b10010100 false = some .sub_A_H ∧
      decodeByte 0b10010101 false = some .sub_A_L ∧
      decodeByte 0b10010110 false = some .sub_A_indHL ∧
      decodeByte 0b10010111 false = some .sub_A_A ∧
      decodeByte 0b10011000 false = some .sbc_A_B ∧
      decodeByte 0b10011001 false = some .sbc_A_C ∧
      decodeByte 0b10011010 false = some .sbc_A_D ∧
      decodeByte 0b10011011 false = some .sbc_A_E ∧
      decodeByte 0b10011100 false = some .sbc_A_H ∧
      decodeByte 0b10011101 false = some .sbc_A_L ∧
      decodeByte 0b10011110 false = some .sbc_A_indHL ∧
      decodeByte 0b10011111 false = some .sbc_A_A := by decide

/-- Row Ax. -/
theorem test_map_row_Ax :
    (∀ b ∈ ([0xA0, 0xA1, 0xA2, 0xA3, 0xA4, 0xA5, 0xA6, 0xA7,
        0xA8, 0xA9, 0xAA, 0xAB, 0xAC, 0xAD, 0xAE, 0xAF] : List Byte),
        decodeByte b false = none) := by decide

/-- Row Bx. -/
theorem test_map_row_Bx :
    (∀ b ∈ ([0xB0, 0xB1, 0xB2, 0xB3, 0xB4, 0xB5, 0xB6, 0xB7,
        0xB8, 0xB9, 0xBA, 0xBB, 0xBC, 0xBD, 0xBE, 0xBF] : List Byte),
        decodeByte b false = none) := by decide

/-- Row Cx. -/
theorem test_map_row_Cx :
    decodeByte 0b11000000 false = some .ret_NZ ∧
      decodeByte 0b11000001 false = some .pop_BC ∧
      decodeByte 0b11000010 false = some .jp_NZ_a16 ∧
      decodeByte 0b11000011 false = some .jp_a16 ∧
      decodeByte 0b11000100 false = some .call_NZ_a16 ∧
      decodeByte 0b11000101 false = some .push_BC ∧
      decodeByte 0b11000110 false = some .add_A_d8 ∧
      decodeByte 0b11001000 false = some .ret_Z ∧
      decodeByte 0b11001001 false = some .ret ∧
      decodeByte 0b11001010 false = some .jp_Z_a16 ∧
      decodeByte 0b11001100 false = some .call_Z_a16 ∧
      decodeByte 0b11001101 false = some .call_a16 ∧
      decodeByte 0b11001110 false = some .adc_A_d8 ∧
      (∀ b ∈ ([0xC7, 0xCB, 0xCF] : List Byte), decodeByte b false = none) := by decide

/-- Row Dx. -/
theorem test_map_row_Dx :
    decodeByte 0b11010000 false = some .ret_NC ∧
      decodeByte 0b11010001 false = some .pop_DE ∧
      decodeByte 0b11010010 false = some .jp_NC_a16 ∧
      decodeByte 0b11010100 false = some .call_NC_a16 ∧
      decodeByte 0b11010101 false = some .push_DE ∧
      decodeByte 0b11010110 false = some .sub_A_d8 ∧
      decodeByte 0b11011000 false = some .ret_C ∧
      decodeByte 0b11011010 false = some .jp_C_a16 ∧
      decodeByte 0b11011100 false = some .call_C_a16 ∧
      decodeByte 0b11011110 false = some .sbc_A_d8 ∧
      (∀ b ∈ ([0xD3, 0xD7, 0xD9, 0xDB, 0xDD, 0xDF] : List Byte), decodeByte b false = none) := by decide

/-- Row Ex. -/
theorem test_map_row_Ex :
    decodeByte 0b11100001 false = some .pop_HL ∧
      decodeByte 0b11100101 false = some .push_HL ∧
      (∀ b ∈ ([0xE0, 0xE2, 0xE3, 0xE4, 0xE6, 0xE7, 0xE8,
        0xE9, 0xEA, 0xEB, 0xEC, 0xED, 0xEE, 0xEF] : List Byte),
        decodeByte b false = none) := by decide

/-- Row Fx. -/
theorem test_map_row_Fx :
    decodeByte 0b11110001 false = some .pop_AF ∧
      decodeByte 0b11110101 false = some .push_AF ∧
      (∀ b ∈ ([0xF0, 0xF2, 0xF3, 0xF4, 0xF6, 0xF7, 0xF8,
        0xF9, 0xFA, 0xFB, 0xFC, 0xFD, 0xFE, 0xFF] : List Byte),
        decodeByte b false = none) := by decide

/-- R93. -/
theorem test_map_prefixed :
    decodeByte 0b00110000 true = some .swap_B ∧
      decodeByte 0b00110001 true = some .swap_C ∧
      decodeByte 0b00110010 true = some .swap_D ∧
      decodeByte 0b00110011 true = some .swap_E ∧
      decodeByte 0b00110100 true = some .swap_H ∧
      decodeByte 0b00110101 true = some .swap_L ∧
      decodeByte 0b00110110 true = some .swap_indHL ∧
      decodeByte 0b00110111 true = some .swap_A ∧
      decodeByte 0x2F true = none ∧ decodeByte 0x38 true = none ∧ decodeByte 0xCB true = none := by decide

/-- R83, R86, R90: lengths, and the operand bytes left to the execution. -/
theorem test_lengths :
    Instr.nop.length = 1 ∧ Instr.ld_A_d8.length = 2 ∧ Instr.ld_SP_d16.length = 3 ∧ Instr.call_NZ_a16.length = 3 ∧
      Instr.ret_NZ.length = 1 ∧ Instr.swap_indHL.length = 2 := by decide

/-- The table's bit numbering: the first byte is the low one. -/
theorem test_table_word :
    decodeTableWord 16 0x37CB = some .swap_A ∧ decodeTableWord 8 0x36 = some .ld_indHL_d8 ∧
      decodeTableWord 24 0x1234C3 = some .jp_a16 ∧ decodeTableWord 8 0x37CB = none := by decide

/-- The first step after reset runs a placed instruction. -/
theorem test_with_fetch_word :
    nextIs (step (State.reset.withFetchWord 8 0x76)) (fun t => t.halted && t.pc == 0x0001) = true ∧
      nextIs (step (State.reset.withFetchWord 16 0x30CB)) (fun t => t.flags == znhc 1 0 0 0 && t.pc == 0x0002) = true := by
  decide

/-! ### Vectors of 95_test_vectors.md: one step each -/

/-- A1, A2, A9: R106. -/
theorem test_add_A_d8_a1_a2_a9 :
    nextIs (step { running 0x0100 [0xC6, 0x01] with a := 0x0F })
        (fun t => t.a == 0x10 && t.flags == znhc 0 0 1 0 && t.pc == 0x0102) = true ∧
      nextIs (step { running 0x0100 [0xC6, 0x01] with a := 0xFF })
        (fun t => t.a == 0x00 && t.flags == znhc 1 0 1 1 && t.pc == 0x0102) = true ∧
      faultIs (step { running 0xFDFF [0xC6] with a := 0x01 }) (.addressOutOfRange 0xFE00) = true := by decide

/-- A33, A34: R106. -/
theorem test_add_A_d8_a33_a34 :
    nextIs (step { running 0x0100 [0xC6, 0x01] with a := 0x0F, params := ⟨.postResult, .inverted, .conventional⟩ })
        (fun t => t.a == 0x10 && t.flags == znhc 0 0 0 0 && t.pc == 0x0102) = true ∧
      nextIs (step { running 0x0100 [0xC6, 0x08] with a := 0x00, params := ⟨.postResult, .inverted, .conventional⟩ })
        (fun t => t.a == 0x08 && t.flags == znhc 0 0 1 0 && t.pc == 0x0102) = true := by decide

/-- A3: R104. -/
theorem test_add_A_B_a3 :
    nextIs (step { running 0x0100 [0x80] with a := 0x3A, b := 0xC6 })
        (fun t => t.a == 0x00 && t.flags == znhc 1 0 1 1 && t.pc == 0x0101) = true := by decide

/-- A4: R104. -/
theorem test_add_A_A_a4 :
    nextIs (step { running 0x0100 [0x87] with a := 0x80 })
        (fun t => t.a == 0x00 && t.flags == znhc 1 0 0 1 && t.pc == 0x0101) = true := by decide

/-- A5: R104. -/
theorem test_add_A_A_a5 :
    nextIs (step { running 0x0100 [0x87] with a := 0x08 })
        (fun t => t.a == 0x10 && t.flags == znhc 0 0 1 0 && t.pc == 0x0101) = true := by decide

/-- A6: R104. -/
theorem test_add_A_C_a6 :
    nextIs (step { running 0x0100 [0x81] with a := 0x00, c := 0x00, flags := znhc 0 1 0 1 })
        (fun t => t.a == 0x00 && t.flags == znhc 1 0 0 0 && t.pc == 0x0101) = true := by decide

/-- A7: R105. -/
theorem test_add_A_indHL_a7 :
    nextIs (step { placeByte (running 0x0100 [0x86]) 0xC000 0x34 with a := 0x12, h := 0xC0, l := 0x00 })
        (fun t => t.a == 0x46 && t.flags == znhc 0 0 0 0 && t.pc == 0x0101) = true := by decide

/-- A8: R105. -/
theorem test_add_A_indHL_a8 :
    faultIs (step { running 0x0100 [0x86] with
          a := 0x12, h := 0xFE, l := 0x00 }) (.addressOutOfRange 0xFE00) = true := by decide

/-- A10, A11: R107. -/
theorem test_adc_A_B_a10_a11 :
    nextIs (step { running 0x0100 [0x88] with a := 0x10, b := 0x05 })
        (fun t => t.a == 0x16 && t.flags == znhc 0 0 0 0 && t.pc == 0x0101) = true ∧
      nextIs (step { running 0x0100 [0x88] with a := 0x10, b := 0x05, flags := znhc 0 0 0 1 })
        (fun t => t.a == 0x15 && t.flags == znhc 0 0 0 0 && t.pc == 0x0101) = true := by decide

/-- A12, A13: R107. -/
theorem test_adc_A_B_a12_a13 :
    nextIs (step { running 0x0100 [0x88] with
          a := 0x10, b := 0x05, flags := znhc 0 0 0 1, params := ⟨.preOperand, .conventional, .conventional⟩ })
        (fun t => t.a == 0x16 && t.flags == znhc 0 0 0 0 && t.pc == 0x0101) = true ∧
      nextIs (step { running 0x0100 [0x88] with
          a := 0x10, b := 0x05, params := ⟨.preOperand, .conventional, .conventional⟩ })
        (fun t => t.a == 0x15 && t.flags == znhc 0 0 0 0 && t.pc == 0x0101) = true := by decide

/-- A14, A16: R109. -/
theorem test_adc_A_d8_a14_a16 :
    nextIs (step { running 0x0100 [0xCE, 0xFF] with a := 0x01 })
        (fun t => t.a == 0x01 && t.flags == znhc 0 0 0 0 && t.pc == 0x0102) = true ∧
      nextIs (step { running 0x0100 [0xCE, 0x00] with a := 0x00, flags := znhc 0 0 0 1 })
        (fun t => t.a == 0x00 && t.flags == znhc 1 0 0 0 && t.pc == 0x0102) = true := by decide

/-- A18: R109. -/
theorem test_adc_A_d8_a18 :
    nextIs (step { running 0x0100 [0xCE, 0x0E] with a := 0x01 })
        (fun t => t.a == 0x10 && t.flags == znhc 0 0 1 0 && t.pc == 0x0102) = true := by decide

/-- A15: R108. -/
theorem test_adc_A_indHL_a15 :
    nextIs (step { placeByte (running 0x0100 [0x8E]) 0xC000 0x00 with a := 0xFF, h := 0xC0, l := 0x00 })
        (fun t => t.a == 0x00 && t.flags == znhc 1 0 1 1 && t.pc == 0x0101) = true := by decide

/-- A17: R107. -/
theorem test_adc_A_A_a17 :
    nextIs (step { running 0x0100 [0x8F] with a := 0x7F })
        (fun t => t.a == 0xFF && t.flags == znhc 0 0 0 0 && t.pc == 0x0101) = true := by decide

/-- A19: R110. -/
theorem test_sub_A_E_a19 :
    nextIs (step { running 0x0100 [0x93] with a := 0x3E, e := 0x3E })
        (fun t => t.a == 0x00 && t.flags == znhc 1 1 0 0 && t.pc == 0x0101) = true := by decide

/-- A20, A21: R112. -/
theorem test_sub_A_d8_a20_a21 :
    nextIs (step { running 0x0100 [0xD6, 0x01] with a := 0x00 })
        (fun t => t.a == 0xFF && t.flags == znhc 0 1 1 1 && t.pc == 0x0102) = true ∧
      nextIs (step { running 0x0100 [0xD6, 0x0F] with a := 0x3E })
        (fun t => t.a == 0x2F && t.flags == znhc 0 1 1 0 && t.pc == 0x0102) = true := by decide

/-- A35, A36: R112. -/
theorem test_sub_A_d8_a35_a36 :
    nextIs (step { running 0x0100 [0xD6, 0x01] with a := 0x10, params := ⟨.postResult, .inverted, .conventional⟩ })
        (fun t => t.a == 0x0F && t.flags == znhc 0 1 0 0 && t.pc == 0x0102) = true ∧
      nextIs (step { running 0x0100 [0xD6, 0x01] with a := 0x10 })
        (fun t => t.a == 0x0F && t.flags == znhc 0 1 1 0 && t.pc == 0x0102) = true := by decide

/-- A22: R111. -/
theorem test_sub_A_indHL_a22 :
    nextIs (step { placeByte (running 0x0100 [0x96]) 0xC000 0x40 with a := 0x3E, h := 0xC0, l := 0x00 })
        (fun t => t.a == 0xFE && t.flags == znhc 0 1 0 1 && t.pc == 0x0101) = true := by decide

/-- A23: R110. -/
theorem test_sub_A_A_a23 :
    nextIs (step { running 0x0100 [0x97] with a := 0x9C, flags := znhc 0 0 1 1 })
        (fun t => t.a == 0x00 && t.flags == znhc 1 1 0 0 && t.pc == 0x0101) = true := by decide

/-- A24: R113. -/
theorem test_sbc_A_H_a24 :
    nextIs (step { running 0x0100 [0x9C] with a := 0x3B, h := 0x2A, flags := znhc 0 0 0 1 })
        (fun t => t.a == 0x11 && t.flags == znhc 0 1 0 0 && t.pc == 0x0101) = true := by decide

/-- A25: R114. -/
theorem test_sbc_A_indHL_a25 :
    nextIs (step { placeByte (running 0x0100 [0x9E]) 0xC000 0x4F with a := 0x3B, h := 0xC0, l := 0x00 })
        (fun t => t.a == 0xEB && t.flags == znhc 0 1 0 1 && t.pc == 0x0101) = true := by decide

/-- A26, A27: R115. -/
theorem test_sbc_A_d8_a26_a27 :
    nextIs (step { running 0x0100 [0xDE, 0x00] with a := 0x01 })
        (fun t => t.a == 0x00 && t.flags == znhc 1 1 0 0 && t.pc == 0x0102) = true ∧
      nextIs (step { running 0x0100 [0xDE, 0xFF] with a := 0x05 })
        (fun t => t.a == 0x05 && t.flags == znhc 0 1 0 0 && t.pc == 0x0102) = true := by decide

/-- A32: R115. -/
theorem test_sbc_A_d8_a32 :
    nextIs (step { running 0x0100 [0xDE, 0x01] with
          a := 0x10, flags := znhc 0 0 0 1, params := ⟨.preOperand, .conventional, .conventional⟩ })
        (fun t => t.a == 0x0E && t.flags == znhc 0 1 1 0 && t.pc == 0x0102) = true := by decide

/-- A28, A29: R113. -/
theorem test_sbc_A_A_a28_a29 :
    nextIs (step { running 0x0100 [0x9F] with a := 0x20 })
        (fun t => t.a == 0xFF && t.flags == znhc 0 1 1 1 && t.pc == 0x0101) = true ∧
      nextIs (step { running 0x0100 [0x9F] with a := 0x0F })
        (fun t => t.a == 0xFF && t.flags == znhc 0 1 0 1 && t.pc == 0x0101) = true := by decide

/-- A30, A31: R113. -/
theorem test_sbc_A_A_a30_a31 :
    nextIs (step { running 0x0100 [0x9F] with a := 0xFF })
        (fun t => t.a == 0xFF && t.flags == znhc 0 1 0 0 && t.pc == 0x0101) = true ∧
      nextIs (step { running 0x0100 [0x9F] with a := 0x20, flags := znhc 0 0 0 1 })
        (fun t => t.a == 0x00 && t.flags == znhc 1 1 0 0 && t.pc == 0x0101) = true := by decide

/-- L1: R130. -/
theorem test_ld_B_A_l1 :
    nextIs (step { running 0x0100 [0x47] with a := 0x5A, flags := znhc 1 0 1 1 })
        (fun t => t.a == 0x5A && t.b == 0x5A && t.flags == znhc 1 0 1 1 && t.pc == 0x0101) = true := by decide

/-- L2: R130. -/
theorem test_ld_D_D_l2 :
    nextIs (step { running 0x0100 [0x52] with d := 0x33 })
        (fun t => t.d == 0x33 && t.flags == znhc 0 0 0 0 && t.pc == 0x0101) = true := by decide

/-- L3: R131. -/
theorem test_ld_A_indHL_l3 :
    nextIs (step { placeByte (running 0x0100 [0x7E]) 0xFF80 0x77 with h := 0xFF, l := 0x80 })
        (fun t => t.a == 0x77 && t.pc == 0x0101) = true := by decide

/-- L4: R131. -/
theorem test_ld_A_indHL_l4 :
    nextIs (step { placeByte (running 0x0100 [0x7E]) 0xC123 0x5C with h := 0xE1, l := 0x23 })
        (fun t => t.a == 0x5C && t.pc == 0x0101) = true := by decide

/-- L5: R131. -/
theorem test_ld_H_indHL_l5 :
    nextIs (step { placeByte (running 0x0100 [0x66]) 0xC010 0x9A with h := 0xC0, l := 0x10 })
        (fun t => t.h == 0x9A && t.l == 0x10 && t.pc == 0x0101) = true := by decide

/-- L6: R132. -/
theorem test_ld_indHL_H_l6 :
    nextIs (step { running 0x0100 [0x74] with h := 0xC0, l := 0x12 })
        (fun t => byteIs t 0xC012 0xC0 && t.pc == 0x0101) = true := by decide

/-- L7, L8: R132. -/
theorem test_ld_indHL_A_l7_l8 :
    nextIs (step { running 0x0100 [0x77] with a := 0x99, h := 0xE0, l := 0x05 })
        (fun t => byteIs t 0xC005 0x99 && byteIs t 0xE005 0x99 && t.pc == 0x0101) = true ∧
      faultIs (step { running 0x0100 [0x77] with
          a := 0x99, h := 0xFF, l := 0xFF }) (.addressOutOfRange 0xFFFF) = true := by decide

/-- L9: R132. -/
theorem test_ld_indHL_A_l9 :
    nextIs (step { running 0x0100 [0x77] with a := 0x5E, h := 0x40, l := 0x00 })
        (fun t => byteIs t 0x4000 0x5E && t.pc == 0x0101) = true := by decide

/-- L10: R133. -/
theorem test_ld_A_d8_l10 :
    nextIs (step (running 0x0100 [0x3E, 0x42])) (fun t => t.a == 0x42 && t.pc == 0x0102) = true := by decide

/-- L11: R134. -/
theorem test_ld_indHL_d8_l11 :
    nextIs (step { running 0x0100 [0x36, 0xAB] with h := 0xC0, l := 0x00 })
        (fun t => byteIs t 0xC000 0xAB && t.pc == 0x0102) = true := by decide

/-- L12: R134. -/
theorem test_ld_indHL_d8_l12 :
    faultIs (step { running 0x0100 [0x36, 0xAB] with
          h := 0xFE, l := 0xA0 }) (.addressOutOfRange 0xFEA0) = true := by decide

/-- L13: R135. -/
theorem test_ld_HL_d16_l13 :
    nextIs (step (running 0x0100 [0x21, 0x34, 0x12])) (fun t => t.h == 0x12 && t.l == 0x34 && t.pc == 0x0103) = true :=
  by decide

/-- L14: R135. -/
theorem test_ld_BC_d16_l14 :
    nextIs (step (running 0x0100 [0x01, 0xCD, 0xAB])) (fun t => t.b == 0xAB && t.c == 0xCD && t.pc == 0x0103) = true :=
  by decide

/-- L15: R136. -/
theorem test_ld_SP_d16_l15 :
    nextIs (step (running 0x0100 [0x31, 0xFF, 0xDF])) (fun t => t.sp == 0xDFFF && t.pc == 0x0103) = true := by decide

/-- L16: R135. -/
theorem test_ld_DE_d16_l16 :
    faultIs (step (running 0xFDFE [0x11, 0x00])) (.addressOutOfRange 0xFE00) = true := by decide

/-- S1: R156. -/
theorem test_push_BC_s1 :
    nextIs (step { running 0x0100 [0xC5] with b := 0x12, c := 0x34, sp := 0xDFFF })
        (fun t => t.sp == 0xDFFD && byteIs t 0xDFFE 0x12 && byteIs t 0xDFFD 0x34 && t.pc == 0x0101) = true := by decide

/-- S3: R156. -/
theorem test_push_BC_s3 :
    faultIs (step { running 0x0100 [0xC5] with
          b := 0x12, sp := 0x0000 }) (.addressOutOfRange 0xFFFF) = true := by decide

/-- S2: R156. -/
theorem test_push_AF_s2 :
    nextIs (step { running 0x0100 [0xF5] with a := 0xAB, flags := znhc 1 0 1 0, sp := 0xFFFE })
        (fun t => t.sp == 0xFFFC && byteIs t 0xFFFD 0xAB && byteIs t 0xFFFC 0xA0 && t.pc == 0x0101) = true := by decide

/-- S4: R156. -/
theorem test_push_DE_s4 :
    faultIs (step { running 0x0100 [0xD5] with d := 0x77, e := 0x66, sp := 0xFF81 })
        (.addressOutOfRange 0xFF7F) = true := by decide

/-- S5: R157. -/
theorem test_pop_DE_s5 :
    nextIs (step { placeByte (placeByte (running 0x0100 [0xD1]) 0xDFFD 0x34) 0xDFFE 0x12 with sp := 0xDFFD })
        (fun t => t.d == 0x12 && t.e == 0x34 && t.sp == 0xDFFF && t.pc == 0x0101) = true := by decide

/-- S6: R158. -/
theorem test_pop_AF_s6 :
    nextIs (step { placeByte (placeByte (running 0x0100 [0xF1]) 0xC000 0xFF) 0xC001 0x01 with sp := 0xC000 })
        (fun t => t.a == 0x01 && t.sp == 0xC002 && t.flags == znhc 1 1 1 1 && t.pc == 0x0101) = true := by decide

/-- S7: R157. -/
theorem test_pop_HL_s7 :
    faultIs (step { running 0x0100 [0xE1] with sp := 0xFFFE }) (.addressOutOfRange 0xFFFF) = true := by decide

/-- S8: R157. -/
theorem test_pop_BC_s8 :
    nextIs (step { running 0x0100 [0xC1] with sp := 0x0000 })
        (fun t => t.b == 0x00 && t.c == 0x00 && t.sp == 0x0002 && t.pc == 0x0101) = true := by decide

/-- S9, S12: R160. -/
theorem test_call_a16_s9_s12 :
    nextIs (step { running 0x0150 [0xCD, 0x00, 0x02] with sp := 0xDFFF })
        (fun t => t.sp == 0xDFFD && byteIs t 0xDFFE 0x01 && byteIs t 0xDFFD 0x53 && t.pc == 0x0200) = true ∧
      faultIs (step { running 0x0100 [0xCD, 0x00, 0x02] with
          sp := 0x0000 }) (.addressOutOfRange 0xFFFF) = true := by decide

/-- S14: R160. -/
theorem test_call_a16_s14 :
    nextIs (step { running 0xC000 [0xCD, 0x00, 0x02] with sp := 0xC003 })
        (fun t => t.sp == 0xC001 && byteIs t 0xC001 0x03 && byteIs t 0xC002 0xC0 && t.pc == 0xC003) = true := by decide

/-- S10: R161. -/
theorem test_call_Z_a16_s10 :
    nextIs (step { running 0x0100 [0xCC, 0x34, 0x12] with sp := 0xDFFF })
        (fun t => t.sp == 0xDFFF && t.pc == 0x0103) = true := by decide

/-- S11: R161. -/
theorem test_call_NC_a16_s11 :
    nextIs (step { running 0x0100 [0xD4, 0x00, 0x03] with sp := 0xDFFF })
        (fun t => t.sp == 0xDFFD && byteIs t 0xDFFE 0x01 && byteIs t 0xDFFD 0x03 && t.pc == 0x0300) = true := by decide

/-- S13: R161. -/
theorem test_call_C_a16_s13 :
    nextIs (step { running 0x0100 [0xDC, 0x00, 0x02] with sp := 0x0000 })
        (fun t => t.sp == 0x0000 && t.pc == 0x0103) = true := by decide

/-- S15: R164. -/
theorem test_ret_s15 :
    nextIs (step { placeByte (placeByte (running 0x0100 [0xC9]) 0xDFFD 0x53) 0xDFFE 0x01 with sp := 0xDFFD })
        (fun t => t.sp == 0xDFFF && t.pc == 0x0153) = true := by decide

/-- S18: R164. -/
theorem test_ret_s18 :
    faultIs (step { running 0x0100 [0xC9] with sp := 0xFFFF }) (.addressOutOfRange 0xFFFF) = true := by decide

/-- S16: R165. -/
theorem test_ret_NC_s16 :
    nextIs (step { running 0x0100 [0xD0] with flags := znhc 0 0 0 1, sp := 0xDFFD })
        (fun t => t.sp == 0xDFFD && t.pc == 0x0101) = true := by decide

/-- S17: R165. -/
theorem test_ret_Z_s17 :
    nextIs (step { placeByte (placeByte (running 0x0100 [0xC8]) 0xDFFD 0x00) 0xDFFE 0x40 with
          flags := znhc 1 0 0 0, sp := 0xDFFD })
        (fun t => t.sp == 0xDFFF && t.pc == 0x4000) = true := by decide

/-- J1, J7: R180. -/
theorem test_jp_a16_j1_j7 :
    nextIs (step (running 0x0100 [0xC3, 0x34, 0x12])) (fun t => t.pc == 0x1234) = true ∧
      nextIs (step (running 0x0100 [0xC3, 0x00, 0xFE])) (fun t => t.pc == 0xFE00) = true := by decide

/-- J8: R180. -/
theorem test_jp_a16_j8 :
    nextIs (step (running 0x0100 [0xC3, 0x00, 0x01])) (fun t => t.pc == 0x0100) = true := by decide

/-- J2: R181. -/
theorem test_jp_NZ_a16_j2 :
    nextIs (step { running 0x0150 [0xC2, 0x00, 0x40] with
          flags := znhc 1 0 0 0 }) (fun t => t.pc == 0x0153) = true := by decide

/-- J3: R181. -/
theorem test_jp_NZ_a16_j3 :
    nextIs (step (running 0x0150 [0xC2, 0x00, 0x40])) (fun t => t.pc == 0x4000) = true := by decide

/-- J4: R181. -/
theorem test_jp_Z_a16_j4 :
    nextIs (step { running 0x0100 [0xCA, 0x00, 0xC0] with
          flags := znhc 1 0 0 0 }) (fun t => t.pc == 0xC000) = true := by decide

/-- J5: R181. -/
theorem test_jp_C_a16_j5 :
    nextIs (step (running 0xFDFE [0xDA, 0x00])) (fun t => t.pc == 0xFE01) = true := by decide

/-- J9: R181. -/
theorem test_jp_C_a16_j9 :
    nextIs (step { running 0x0100 [0xDA, 0x78, 0x56] with
          flags := znhc 0 0 0 1 }) (fun t => t.pc == 0x5678) = true := by decide

/-- J6: R181. -/
theorem test_jp_NC_a16_j6 :
    faultIs (step (running 0xFDFE [0xD2, 0x00])) (.addressOutOfRange 0xFE00) = true := by decide

/-- X1: R193. -/
theorem test_swap_A_x1 :
    nextIs (step { running 0x0100 [0xCB, 0x37] with a := 0xF1, flags := znhc 1 1 1 1 })
        (fun t => t.a == 0x1F && t.flags == znhc 0 0 0 0 && t.pc == 0x0102) = true := by decide

/-- X4: R193. -/
theorem test_swap_A_x4 :
    nextIs (step { running 0x0100 [0xCB, 0x37] with
          a := 0xF1, flags := znhc 0 1 1 1, params := ⟨.preOperand, .inverted, .preserve⟩ })
        (fun t => t.a == 0x1F && t.flags == znhc 0 1 1 1 && t.pc == 0x0102) = true := by decide

/-- X2: R193. -/
theorem test_swap_B_x2 :
    nextIs (step { running 0x0100 [0xCB, 0x30] with b := 0x00 })
        (fun t => t.b == 0x00 && t.flags == znhc 1 0 0 0 && t.pc == 0x0102) = true := by decide

/-- X3: R194. -/
theorem test_swap_indHL_x3 :
    nextIs (step { placeByte (running 0x0100 [0xCB, 0x36]) 0xC000 0xA5 with h := 0xC0, l := 0x00 })
        (fun t => byteIs t 0xC000 0x5A && t.flags == znhc 0 0 0 0 && t.pc == 0x0102) = true := by decide

/-- X6: R194. -/
theorem test_swap_indHL_x6 :
    faultIs (step { running 0x0100 [0xCB, 0x36] with
          h := 0xFF, l := 0x00 }) (.addressOutOfRange 0xFF00) = true := by decide

/-- X5: R193. -/
theorem test_swap_L_x5 :
    nextIs (step { running 0x0100 [0xCB, 0x35] with l := 0x11, flags := znhc 0 0 0 1 })
        (fun t => t.l == 0x11 && t.flags == znhc 0 0 0 0 && t.pc == 0x0102) = true := by decide

/-- X7: R221. -/
theorem test_cb_00_x7 :
    faultIs (step (running 0x0100 [0xCB, 0x00])) (.unimplementedOpcode 0x00 .prefixed) = true := by decide

/-- X8: R221. -/
theorem test_cb_cb_x8 :
    faultIs (step (running 0x0100 [0xCB, 0xCB])) (.unimplementedOpcode 0xCB .prefixed) = true := by decide

/-- X9: R222. -/
theorem test_cb_alone_x9 :
    faultIs (step (running 0xFDFF [0xCB])) (.addressOutOfRange 0xFE00) = true := by decide

/-- C1: R200. -/
theorem test_nop_c1 :
    nextIs (step { running 0x0000 [0x00] with a := 0x12, flags := znhc 1 0 1 0 })
        (fun t => t.a == 0x12 && t.flags == znhc 1 0 1 0 && t.pc == 0x0001) = true := by decide

/-- C9: R200. -/
theorem test_nop_c9 :
    nextIs (step (running 0xFFFE [0x00])) (fun t => t.pc == 0xFFFF) = true := by decide

/-- C2: R201. -/
theorem test_halt_c2 :
    nextIs (step (running 0x0105 [0x76])) (fun t => t.halted && t.pc == 0x0106) = true := by decide

/-- C3: R203. -/
theorem test_byte_3c_c3 :
    nextIs (step { running 0x0106 [0x3C] with
          halted := true }) (fun t => t.halted && t.pc == 0x0106) = true := by decide

/-- C4: R221. -/
theorem test_byte_3c_c4 :
    faultIs (step (running 0x0100 [0x3C])) (.unimplementedOpcode 0x3C .plain) = true := by decide

/-- C5: R221. -/
theorem test_byte_a8_c5 :
    faultIs (step (running 0x0100 [0xA8])) (.unimplementedOpcode 0xA8 .plain) = true := by decide

/-- C6: R221. -/
theorem test_byte_fb_c6 :
    faultIs (step (running 0x0100 [0xFB])) (.unimplementedOpcode 0xFB .plain) = true := by decide

/-- C7: R222. -/
theorem test_fetch_unmapped_c7 :
    faultIs (step (running 0xFE00 [])) (.addressOutOfRange 0xFE00) = true := by decide

/-- C8: R222. -/
theorem test_fetch_unmapped_c8 :
    faultIs (step (running 0xFFFF [])) (.addressOutOfRange 0xFFFF) = true := by decide
/-! ### The bus, construction and the document's worked examples (M, K and W of 95_test_vectors.md) -/

/-- A machine with these bytes in its arrays, as M1 and M2 set them up. -/
def cartMachine (boot : Bool) : State :=
  { State.reset with
    bootActive := boot
    mem := { emptyMemory with
      boot := if boot then [(0, 0x3E), (0xFF, 0xEE)] else []
      rom0 := [(0, 0x06), (0x3FFF, 0x11)]
      romN := [(0, 0x22), (0x3FFF, 0x33)] } }

/-- M1. -/
theorem test_read_rom_banks :
    byteIs (cartMachine false) 0x0000 0x06 = true ∧ byteIs (cartMachine false) 0x3FFF 0x11 = true ∧
      byteIs (cartMachine false) 0x4000 0x22 = true ∧ byteIs (cartMachine false) 0x7FFF 0x33 = true := by decide

/-- M2. -/
theorem test_read_boot_overlay :
    byteIs (cartMachine true) 0x0000 0x3E = true ∧ byteIs (cartMachine true) 0x00FF 0xEE = true ∧
      byteIs (cartMachine true) 0x0100 0x00 = true := by decide

/-- M3. -/
theorem test_write_boot_overlay :
    byteIs (placeByte (cartMachine true) 0x0000 0x55) 0x0000 0x55 = true ∧
      byteIs (disableBoot (placeByte (cartMachine true) 0x0000 0x55)) 0x0000 0x06 = true := by decide

/-- M4, M5. -/
theorem test_echo_ram :
    let s := placeByte (placeByte State.reset 0xC000 0xAA) 0xFDFF 0xBB
    byteIs s 0xE000 0xAA = true ∧ byteIs s 0xDDFF 0xBB = true ∧ byteIs s 0xDE00 0x00 = true := by decide

/-- M6 to M10. -/
theorem test_unmapped_reads :
    readFails State.reset 0xFE00 = true ∧ readFails State.reset 0xFEA0 = true ∧ readFails State.reset 0xFF00 = true ∧
      readFails State.reset 0xFF7F = true ∧ readFails State.reset 0xFFFF = true := by decide

/-- M11: the write fails and stores nothing. -/
theorem test_unmapped_write :
    memWrite State.reset 0xFF7F 0x01 = .error (.addressOutOfRange 0xFF7F) := memWrite_of_unmapped _ (by decide)

/-- M12, M13, M14. -/
theorem test_write_regions :
    byteIs (placeByte State.reset 0xFF80 0x12) 0xFF80 0x12 = true ∧
      byteIs (placeByte State.reset 0xFFFE 0x34) 0xFFFE 0x34 = true ∧
      byteIs (placeByte State.reset 0x8000 0x9A) 0x8000 0x9A = true ∧
      byteIs (placeByte State.reset 0xA000 0x9B) 0xA000 0x9B = true ∧
      byteIs (placeByte State.reset 0x2000 0x77) 0x2000 0x77 = true := by decide

/-- Every region written and then read: the canonical form holds, and writing zero removes the entry. -/
theorem test_write_keeps_canonical_form :
    let s := placeBytes State.reset 0xC000 [0x01, 0x02, 0x03]
    s.mem.wf = true ∧ s.mem.wram = [(0, 0x01), (1, 0x02), (2, 0x03)] ∧
      (placeByte s 0xC001 0x00).mem.wram = [(0, 0x01), (2, 0x03)] := by decide

/-- K1, K2. -/
theorem test_construct_short_cartridge (p : Params) (n : Nat) (h : n = 10 ∨ n = 32767) :
    construct p none (List.replicate n 0x00) = .fault .configurationError := by
  have hn : ¬32768 ≤ n := by omega
  simp [construct, minCartSize, hn]

/-- K5, K6, K8. -/
theorem test_construct_wrong_boot_image (p : Params) (k n : Nat)
    (h : k = 255 ∧ n = 32768 ∨ k = 257 ∧ n = 32768 ∨ k = 255 ∧ n = 10) :
    construct p (some (List.replicate k 0x00)) (List.replicate n 0x00) = .fault .configurationError := by
  have hk : k ≠ 256 := by omega
  simp [construct, bootImageOk, bootImageSize, hk]

theorem cellsFrom_zeros (k n : Nat) : cellsFrom k (List.replicate n unlistedByte) = [] := by
  induction n generalizing k with
  | zero => rfl
  | succ n ih => simp [List.replicate_succ, cellsFrom, ih]

/-- Any cartridge of zeros that is long enough constructs the machine of `State.reset`, with these parameters. -/
theorem construct_zeros (p : Params) (n : Nat) (h : 32768 ≤ n) :
    construct p none (List.replicate n unlistedByte) = .next { State.reset with params := p } := by
  have hm : imageMemory none (List.replicate n unlistedByte) = emptyMemory := by
    simp [imageMemory, romBankSize, cellsFrom_zeros, cellsFrom, emptyMemory]
  have hc : construct p none (List.replicate n unlistedByte) =
      .next { State.reset with mem := imageMemory none (List.replicate n unlistedByte), params := p } := by
    simp only [construct, bootImageOk, minCartSize, List.length_replicate, h, decide_true, Bool.and_self, if_true]
    rfl
  rw [hc, hm]
  rfl

/-- K3, K4: the cartridge of 32768 bytes and the one of 40000. -/
theorem test_construct_zero_cartridge :
    construct standardParams none (List.replicate 32768 unlistedByte) = .next State.reset ∧
      construct standardParams none (List.replicate 40000 unlistedByte) = .next State.reset :=
  ⟨construct_zeros _ _ (by decide), construct_zeros _ _ (by decide)⟩

/-- K7: a boot image of 256 bytes is accepted and starts boot mode. -/
theorem test_construct_boot_image (p : Params) (k n : Nat) (hk : k = 256) (hn : n = 32768) :
    nextIs (construct p (some (List.replicate k 0x00)) (List.replicate n 0x00))
      (fun t => t.bootActive && t.pc == 0x0000) = true := by
  have h : 32768 ≤ n := by omega
  simp only [construct, bootImageOk, bootImageSize, minCartSize, List.length_replicate, beq_iff_eq.2 hk, h, decide_true,
    Bool.and_self, if_true]
  rfl

/-- W1, W2: the worked examples of the pair views and the flag codec. -/
theorem test_pairs_and_flags :
    readPair (State.reset.setPair .AF 0x12FF) .AF = 0x12F0 ∧ readPair (State.reset.setPair .BC 0xBEEF) .BC = 0xBEEF ∧
      (State.reset.setPair .BC 0xBEEF).b = 0xBE ∧ encodeFlags (znhc 1 0 1 0) = 0xA0 ∧
      decodeFlags 0xAF = znhc 1 0 1 0 := by decide

/-- W6: the half carry of 0xFF + 0x01 in both modes. -/
theorem test_half_carry_modes :
    addCore .preOperand 0xFF 0x01 = (0x00, znhc 1 0 1 1) ∧ addCore .postResult 0xFF 0x01 = (0x00, znhc 1 0 0 1) := by
  decide

/-- R117 (A14, A27): the fold of 0xFF wraps. -/
theorem test_fold_wraps :
    foldOperand .inverted false 0xFF = 0x00 ∧ foldOperand .inverted true 0xFF = 0xFF ∧
      foldOperand .conventional true 0xFF = 0x00 ∧ foldOperand .conventional false 0xFF = 0xFF := by decide

/-- P4a: the error leaves the machine as it was (R226), and the session is over. -/
theorem test_failed_step_ends_the_session :
    let x : Session := ⟨running 0x0000 [0xC5], none⟩
    callStep x = ⟨x.machine, some (.error (.addressOutOfRange 0xFFFF))⟩ ∧
      makeMove (callStep x) .step = some (callStep x) := by decide

/-- P5: the first instruction under the boot overlay is the boot image's, LD A,$99. -/
theorem test_boot_overlay_is_fetched :
    let s := { cartMachine true with mem := { (cartMachine true).mem with boot := [(0, 0x3E), (1, 0x99)] } }
    nextIs (step s) (fun t => t.a == 0x99 && t.pc == 0x0002) = true ∧
      nextIs (step (disableBoot s)) (fun t => t.b == 0x00 && t.pc == 0x0002) = true := by decide

/-- P6: a byte a store wrote is what the next fetch reads (R69). -/
theorem test_store_then_fetch :
    nextIs (step { running 0x0003 [0x36, 0x76] with h := 0xC0 })
      (fun t => nextIs (step { t with pc := 0xC000 }) (fun u => u.halted && u.pc == 0xC001)) = true := by decide

/-! ### Witnesses: states and operands that meet the hypotheses of each statement -/

/-- Operand bytes 0x34 0x12 after `pc`, `pair(HL)` = 0xC000 holding 0x5A, and a stack in working RAM. -/
def ready : State :=
  { placeByte (running 0x0100 [0x00, 0x34, 0x12]) 0xC000 0x5A with h := 0xC0, l := 0x00, sp := 0xDFFE }

/-- As `ready`, with this `pair(HL)`. -/
def readyHL (h l : Byte) : State := { ready with h := h, l := l }

/-- As `ready`, with this `pc`. -/
def readyPc (pc : Word) : State := { ready with pc := pc }

/-- As `ready`, with this `sp`. -/
def readySp (sp : Word) : State := { ready with sp := sp }

/-- A cartridge of 32768 bytes. -/
def zeroCart : List Byte := List.replicate 32768 0x00

theorem zeroCart_length : zeroCart.length = 32768 := List.length_replicate

/-- Without a boot image and with one of 256 bytes. -/
theorem witness_ConstructPlacesImages :
    (∀ img, (none : Option (List Byte)) = some img → img.length = 256) ∧
      (∀ img, some (List.replicate 256 (0x3E : Byte)) = some img → img.length = 256) ∧ 32768 ≤ zeroCart.length ∧
      (0x3FFF : Nat) < 0x4000 ∧ (255 : Nat) < 256 :=
  ⟨fun _ h => (Option.some_ne_none _ h.symm).elim, fun _ h => (Option.some.inj h) ▸ List.length_replicate,
    Nat.le_of_eq zeroCart_length.symm, by decide, by decide⟩

theorem witness_ConstructRejectsWrongSizes :
    construct standardParams none [] = .fault .configurationError ∧
      ∃ t, construct standardParams none zeroCart = .next t :=
  ⟨rfl, _, construct_zeros _ _ (Nat.le_refl _)⟩

theorem witness_DecodeOfEncodeIsIdentity :
    Instr.ld_B_A.wellFormed = true ∧ Instr.swap_A.wellFormed = true ∧ Instr.halt.wellFormed = true := by decide

theorem witness_AcceptedBytesAreTheEncoding :
    decode [0x47, 0x99] = .ok (.ld_B_A, [0x99]) ∧ decode [0xCB, 0x37] = .ok (.swap_A, []) := ⟨rfl, rfl⟩

/-- One form for each clause. -/
theorem witness_OpcodesOfTheForms :
    Instr.add_A_A.form = .alu .add (.reg .A) ∧ Instr.adc_A_B.form = .alu .adc (.reg .B) ∧
      Instr.sub_A_L.form = .alu .sub (.reg .L) ∧ Instr.sbc_A_H.form = .alu .sbc (.reg .H) ∧
      Instr.ld_B_A.form = .ld8 (.reg .B) (.reg .A) ∧ Instr.ld_A_indHL.form = .ld8 (.reg .A) .indHL ∧
      Instr.ld_indHL_B.form = .ld8 .indHL (.reg .B) ∧ Instr.ld_L_d8.form = .ld8 (.reg .L) .imm8 ∧
      Instr.ld_SP_d16.form = .ld16 .SP ∧ Instr.push_AF.form = .push .AF ∧ Instr.pop_BC.form = .pop .BC ∧
      Instr.swap_A.form = .swap (.reg .A) := by decide

/-- The first and the last byte of the list, and both ends of the prefixed page's gap. -/
theorem witness_UnmappedBytesAreRejected :
    ((running 0x0100 [0x02]).halted = false ∧
      memRead (running 0x0100 [0x02]) (running 0x0100 [0x02]).pc = .ok 0x02 ∧ decodeByte 0x02 false = none) ∧
    ((running 0x0100 [0xFF]).halted = false ∧
      memRead (running 0x0100 [0xFF]) (running 0x0100 [0xFF]).pc = .ok 0xFF ∧
      (0xFF : Byte) ∈ ([0xFC, 0xFD, 0xFE, 0xFF] : List Byte)) ∧
    ((running 0x0100 [0xCB, 0x2F]).halted = false ∧
      memRead (running 0x0100 [0xCB, 0x2F]) (running 0x0100 [0xCB, 0x2F]).pc = .ok 0xCB ∧
      memRead (running 0x0100 [0xCB, 0x2F]) ((running 0x0100 [0xCB, 0x2F]).pc + 1) = .ok 0x2F ∧
      ¬((0x30 : Byte) ≤ 0x2F ∧ (0x2F : Byte) ≤ 0x37)) ∧
    memRead (running 0x0100 [0xCB, 0x38]) ((running 0x0100 [0xCB, 0x38]).pc + 1) = .ok 0x38 ∧
      ¬((0x30 : Byte) ≤ 0x38 ∧ (0x38 : Byte) ≤ 0x37) := by
  simp only [read_iff]
  decide

theorem witness_StepRunsDecodedInstruction :
    (running 0x0100 [0xCB, 0x37]).halted = false ∧
      bytesAt (running 0x0100 [0xCB, 0x37]) (running 0x0100 [0xCB, 0x37]).pc [0xCB, 0x37] ∧
      decode [0xCB, 0x37] = .ok (.swap_A, []) :=
  ⟨rfl, ⟨read_iff.2 (by decide), read_iff.2 (by decide), trivial⟩, rfl⟩

theorem witness_HaltedStepDoesNothing : ({ State.reset with halted := true, pc := 0xFE00 } : State).halted = true := rfl

theorem witness_FetchErrorsInOrder :
    ((running 0xFE00 []).halted = false ∧ mapped (running 0xFE00 []) (running 0xFE00 []).pc = false) ∧
    (memRead (running 0xFDFF [0xCB]) (running 0xFDFF [0xCB]).pc = .ok 0xCB ∧
      mapped (running 0xFDFF [0xCB]) ((running 0xFDFF [0xCB]).pc + 1) = false) ∧
    (memRead (running 0x0100 [0x3C]) (running 0x0100 [0x3C]).pc = .ok 0x3C ∧ (0x3C : Byte) ≠ 0xCB ∧
      decodeByte 0x3C false = none) ∧
    memRead (running 0x0100 [0xCB, 0x00]) (running 0x0100 [0xCB, 0x00]).pc = .ok 0xCB ∧
      memRead (running 0x0100 [0xCB, 0x00]) ((running 0x0100 [0xCB, 0x00]).pc + 1) = .ok 0x00 ∧
      decodeByte 0x00 true = none := by
  simp only [read_iff]
  decide

theorem witness_StepErrorsAreAddressOrOpcode :
    step (running 0xFE00 []) = .fault (.addressOutOfRange 0xFE00) ∧
      step (running 0x0000 [0xC5]) = .fault (.addressOutOfRange 0xFFFF) ∧
      step (running 0x0100 [0x3C]) = .fault (.unimplementedOpcode 0x3C .plain) := by
  simp only [fault_iff]
  decide

/-- Both ends of every region, and the two conclusions that meet at the boot overlay's edge. -/
theorem witness_RegionTableRoutes :
    (route 0x0000 true = some (.boot, 0) ∧ route 0x00FF true = some (.boot, 0xFF)) ∧
    (route 0x0000 false = some (.rom0, 0) ∧ route 0x0100 true = some (.rom0, 0x100) ∧
      route 0x3FFF true = some (.rom0, 0x3FFF)) ∧
    (route 0x4000 false = some (.romN, 0) ∧ route 0x7FFF false = some (.romN, 0x3FFF)) ∧
    (route 0x8000 false = some (.vram, 0) ∧ route 0x9FFF false = some (.vram, 0x1FFF)) ∧
    (route 0xA000 false = some (.eram, 0) ∧ route 0xBFFF false = some (.eram, 0x1FFF)) ∧
    (route 0xC000 false = some (.wram, 0) ∧ route 0xDFFF false = some (.wram, 0x1FFF)) ∧
    (route 0xE000 false = some (.wram, 0) ∧ route 0xFDFF false = some (.wram, 0x1DFF)) ∧
    (route 0xFF80 false = some (.hram, 0) ∧ route 0xFFFE false = some (.hram, 126)) ∧
    route 0xFE00 false = none ∧ route 0xFF7F true = none ∧ route 0xFFFF false = none := by decide

theorem witness_AccessFailsExactlyWhereUnmapped :
    memRead State.reset 0xFE00 = .error (.addressOutOfRange 0xFE00) ∧
      memWrite State.reset 0xFFFF 0x01 = .error (.addressOutOfRange 0xFFFF) ∧
      byteIs State.reset 0xFDFF 0x00 = true ∧ byteIs State.reset 0xFF80 0x00 = true :=
  ⟨memRead_of_unmapped (by decide), memWrite_of_unmapped _ (by decide), by decide, by decide⟩

theorem witness_EchoRamAliasesWorkingRam :
    ((0xC000 : Word) ≤ 0xC000 ∧ (0xC000 : Word) ≤ 0xDDFF ∧ (0xC000 : Word) ≤ 0xDDFF ∧ (0xDDFF : Word) ≤ 0xDDFF) ∧
      (mapped State.reset 0xDDFF = true ∧ sameByte State.reset 0xDDFF 0xFDFF = true) ∧
      mapped State.reset 0xDE00 = true ∧ sameByte State.reset 0xDE00 0xDE00 = true := by decide

theorem witness_WriteIsReadBackAndNothingElseChanges :
    MemoryCanonical State.reset ∧ mapped State.reset 0x0000 = true ∧ sameByte State.reset 0xC000 0xE000 = true ∧
      mapped State.reset 0xFF7F = false := by
  simp only [MemoryCanonical]
  decide

theorem witness_VideoReadIsTheBusByte :
    ((0x8000 : Word) ≤ 0x8000 ∧ (0x8000 : Word) ≤ 0x9FFF ∧ (0x9FFF : Word) ≤ 0x9FFF) ∧ MemoryCanonical State.reset ∧
      readVideo (placeByte State.reset 0x9FFF 0x9A) 0x9FFF = some 0x9A ∧ readVideo State.reset 0xA000 = none := by
  simp only [MemoryCanonical]
  decide

theorem witness_DisableBootUncoversRomBank0 :
    ((0x00FF : Word) ≤ 0x00FF ∧ (cartMachine true).bootActive = true) ∧ (0x0100 : Word) ≤ 0x0100 ∧
      (cartMachine false).bootActive = false := by decide

theorem witness_RegisterWriteChangesOneCell : Reg8.B ≠ Reg8.A := by decide

theorem witness_PairWriteRoundTrip : Pair.BC ≠ .AF ∧ Pair.HL ≠ Pair.DE := by decide

theorem witness_AddResult :
    Instr.add_A_A.form = .alu .add (.reg .A) ∧ memRead ready (readPair ready .HL) = .ok 0x5A ∧
      mapped (readyHL 0xFE 0x00) (readPair (readyHL 0xFE 0x00) .HL) = false ∧
      memRead ready (ready.pc + 1) = .ok 0x34 ∧ mapped (readyPc 0xFDFF) ((readyPc 0xFDFF).pc + 1) = false := by
  simp only [read_iff]
  decide

theorem witness_AdcResult :
    Instr.adc_A_A.form = .alu .adc (.reg .A) ∧ memRead ready (readPair ready .HL) = .ok 0x5A ∧
      mapped (readyHL 0xFF 0x7F) (readPair (readyHL 0xFF 0x7F) .HL) = false ∧
      memRead ready (ready.pc + 1) = .ok 0x34 ∧ mapped (readyPc 0xFDFF) ((readyPc 0xFDFF).pc + 1) = false := by
  simp only [read_iff]
  decide

theorem witness_SubResult :
    Instr.sub_A_E.form = .alu .sub (.reg .E) ∧ memRead ready (readPair ready .HL) = .ok 0x5A ∧
      mapped (readyHL 0xFF 0xFF) (readPair (readyHL 0xFF 0xFF) .HL) = false ∧
      memRead ready (ready.pc + 1) = .ok 0x34 ∧ mapped (readyPc 0xFFFE) ((readyPc 0xFFFE).pc + 1) = false := by
  simp only [read_iff]
  decide

theorem witness_SbcResult :
    Instr.sbc_A_H.form = .alu .sbc (.reg .H) ∧ memRead ready (readPair ready .HL) = .ok 0x5A ∧
      mapped (readyHL 0xFE 0x00) (readPair (readyHL 0xFE 0x00) .HL) = false ∧
      memRead ready (ready.pc + 1) = .ok 0x34 ∧ mapped (readyPc 0xFDFF) ((readyPc 0xFDFF).pc + 1) = false := by
  simp only [read_iff]
  decide

/-- The last operand that does not wrap, and the one that does, in both modes. -/
theorem witness_FoldedOperandWrapsWithoutCarry :
    ¬((0xFE : Byte) = 0xFF ∧ carryFold .inverted false = 1) ∧ ¬((0xFF : Byte) = 0xFF ∧ carryFold .inverted true = 1) ∧
      carryFold .inverted false = 1 ∧ carryFold .conventional true = 1 := by decide

theorem witness_LoadRegisterFromRegister :
    Instr.ld_B_A.form = .ld8 (.reg .B) (.reg .A) ∧ Instr.ld_D_D.form = .ld8 (.reg .D) (.reg .D) := by decide

theorem witness_LoadRegisterFromMemory :
    Instr.ld_H_indHL.form = .ld8 (.reg .H) .indHL ∧ memRead ready (readPair ready .HL) = .ok 0x5A ∧
      mapped (readyHL 0xFE 0x00) (readPair (readyHL 0xFE 0x00) .HL) = false := by
  simp only [read_iff]
  decide

theorem witness_StoreRegisterToMemory :
    Instr.ld_indHL_L.form = .ld8 .indHL (.reg .L) ∧ MemoryCanonical ready ∧ mapped ready (readPair ready .HL) = true ∧
      mapped (readyHL 0xFF 0xFF) (readPair (readyHL 0xFF 0xFF) .HL) = false := by
  simp only [MemoryCanonical]
  decide

theorem witness_LoadRegisterImmediate :
    Instr.ld_A_d8.form = .ld8 (.reg .A) .imm8 ∧ memRead ready (ready.pc + 1) = .ok 0x34 ∧
      mapped (readyPc 0xFDFF) ((readyPc 0xFDFF).pc + 1) = false := by
  simp only [read_iff]
  decide

theorem witness_StoreImmediateToMemory :
    (MemoryCanonical ready ∧ memRead ready (ready.pc + 1) = .ok 0x34 ∧ mapped ready (readPair ready .HL) = true) ∧
      mapped (readyPc 0xFDFF) ((readyPc 0xFDFF).pc + 1) = false ∧
      mapped (readyHL 0xFE 0xA0) ((readyHL 0xFE 0xA0).pc + 1) = true ∧
      mapped (readyHL 0xFE 0xA0) (readPair (readyHL 0xFE 0xA0) .HL) = false := by
  simp only [read_iff, MemoryCanonical]
  decide

theorem witness_LoadWordImmediate :
    Instr.ld_SP_d16.form = .ld16 .SP ∧ (memRead ready (ready.pc + 1) = .ok 0x34 ∧ memRead ready (ready.pc + 2) = .ok 0x12) ∧
      mapped (readyPc 0xFDFF) ((readyPc 0xFDFF).pc + 1) = false ∧
      mapped (readyPc 0xFDFE) ((readyPc 0xFDFE).pc + 1) = true ∧
      mapped (readyPc 0xFDFE) ((readyPc 0xFDFE).pc + 2) = false := by
  simp only [read_iff]
  decide

/-- `sp` at each edge of the zero page (R155). -/
theorem witness_PushResult :
    Instr.push_AF.form = .push .AF ∧
      (MemoryCanonical ready ∧ mapped ready (ready.sp - 1) = true ∧ mapped ready (ready.sp - 2) = true) ∧
      mapped (readySp 0x0000) ((readySp 0x0000).sp - 1) = false ∧
      mapped (readySp 0xFF81) ((readySp 0xFF81).sp - 1) = true ∧
      mapped (readySp 0xFF81) ((readySp 0xFF81).sp - 2) = false := by
  simp only [MemoryCanonical]
  decide

theorem witness_PopResult :
    Instr.pop_AF.form = .pop .AF ∧ (memRead ready ready.sp = .ok 0x00 ∧ memRead ready (ready.sp + 1) = .ok 0x00) ∧
      mapped (readySp 0xFFFF) (readySp 0xFFFF).sp = false ∧ mapped (readySp 0xFFFE) (readySp 0xFFFE).sp = true ∧
      mapped (readySp 0xFFFE) ((readySp 0xFFFE).sp + 1) = false := by
  simp only [read_iff]
  decide

theorem witness_PushThenPopReturnsTheValue :
    MemoryCanonical ready ∧ mapped ready (ready.sp - 1) = true ∧ mapped ready (ready.sp - 2) = true := by
  simp only [MemoryCanonical]
  decide

theorem witness_CallResult :
    Instr.call_a16.form = .call .always ∧ Instr.call_NZ_a16.form = .call .NZ ∧ holds ready.flags .NZ = true ∧
      (Instr.call_Z_a16.form = .call .Z ∧ holds ready.flags .Z = false) ∧
      (MemoryCanonical ready ∧ mapped ready (ready.sp - 1) = true ∧ mapped ready (ready.sp - 2) = true ∧
        mapped ready (ready.pc + 1) = true ∧ mapped ready (ready.pc + 2) = true) ∧
      mapped (readySp 0x0000) ((readySp 0x0000).sp - 1) = false ∧
      (mapped (readySp 0xFF81) ((readySp 0xFF81).sp - 1) = true ∧
        mapped (readySp 0xFF81) ((readySp 0xFF81).sp - 2) = false) ∧
      (mapped (readyPc 0xFDFF) ((readyPc 0xFDFF).sp - 2) = true ∧
        mapped (readyPc 0xFDFF) ((readyPc 0xFDFF).pc + 1) = false) ∧
      mapped (readyPc 0xFDFE) ((readyPc 0xFDFE).pc + 1) = true ∧
        mapped (readyPc 0xFDFE) ((readyPc 0xFDFE).pc + 2) = false := by
  simp only [MemoryCanonical]
  decide

theorem witness_CallPushingOverItsTargetReturnsAtOnce :
    Instr.call_a16.form = .call .always ∧ holds (readySp 0x0103).flags .always = true ∧ MemoryCanonical (readySp 0x0103) ∧
      (readySp 0x0103).sp = (readySp 0x0103).pc + 3 ∧ mapped (readySp 0x0103) ((readySp 0x0103).pc + 1) = true ∧
      mapped (readySp 0x0103) ((readySp 0x0103).pc + 2) = true := by
  simp only [MemoryCanonical]
  decide

theorem witness_ReturnResult :
    (Instr.ret.form = .ret .always ∧ Instr.ret_NC.form = .ret .NC ∧ holds ready.flags .NC = true) ∧
      (Instr.ret_C.form = .ret .C ∧ holds ready.flags .C = false) ∧
      (memRead ready ready.sp = .ok 0x00 ∧ memRead ready (ready.sp + 1) = .ok 0x00) ∧
      mapped (readySp 0xFFFF) (readySp 0xFFFF).sp = false ∧ mapped (readySp 0xFFFE) (readySp 0xFFFE).sp = true ∧
      mapped (readySp 0xFFFE) ((readySp 0xFFFE).sp + 1) = false := by
  simp only [read_iff]
  decide

theorem witness_StackAtResetPointer :
    State.reset.sp = 0x0000 ∧ Instr.push_BC.form = .push .BC ∧ Instr.call_NZ_a16.form = .call .NZ ∧
      holds State.reset.flags .NZ = true ∧ Instr.pop_BC.form = .pop .BC ∧ Instr.ret.form = .ret .always ∧
      holds State.reset.flags .always = true := by decide

theorem witness_JumpResult :
    (Instr.jp_a16.form = .jp .always ∧ Instr.jp_NZ_a16.form = .jp .NZ ∧ holds ready.flags .NZ = true) ∧
      (Instr.jp_C_a16.form = .jp .C ∧ holds ready.flags .C = false) ∧
      (memRead ready (ready.pc + 1) = .ok 0x34 ∧ memRead ready (ready.pc + 2) = .ok 0x12) ∧
      mapped (readyPc 0xFDFF) ((readyPc 0xFDFF).pc + 1) = false ∧
      mapped (readyPc 0xFDFE) ((readyPc 0xFDFE).pc + 1) = true ∧
      mapped (readyPc 0xFDFE) ((readyPc 0xFDFE).pc + 2) = false := by
  simp only [read_iff]
  decide

/-- P7: JP $0000 at 0x0000. -/
theorem witness_JumpToItselfNeverEnds :
    (running 0x0000 [0xC3, 0x00, 0x00]).halted = false ∧
      bytesAt (running 0x0000 [0xC3, 0x00, 0x00]) (running 0x0000 [0xC3, 0x00, 0x00]).pc
        [0xC3, (running 0x0000 [0xC3, 0x00, 0x00]).pc.extractLsb' 0 8,
          (running 0x0000 [0xC3, 0x00, 0x00]).pc.extractLsb' 8 8] := by
  simp only [read_iff, bytesAt]
  decide

theorem witness_EngineControlResult : ∃ t, exec .halt State.reset = .next t := next_iff.2 (by decide)

theorem witness_SwapRegisterResult : Instr.swap_A.form = .swap (.reg .A) := by decide

theorem witness_SwapMemoryResult :
    (MemoryCanonical ready ∧ memRead ready (readPair ready .HL) = .ok 0x5A) ∧
      mapped (readyHL 0xFF 0x00) (readPair (readyHL 0xFF 0x00) .HL) = false := by
  simp only [read_iff, MemoryCanonical]
  decide

theorem witness_FlagsChangeOnlyByTheirWriters :
    (∃ t, exec .nop ready = .next t) ∧ mayWriteFlags ready Instr.nop.form = false ∧
      (∃ t, exec .pop_BC ready = .next t) ∧ mayWriteFlags ready Instr.pop_BC.form = false ∧
      mayWriteFlags { ready with params := ⟨.preOperand, .inverted, .preserve⟩ } Instr.swap_B.form = false := by
  simp only [next_iff]
  decide

theorem witness_RegistersChangeOnlyByTheirWriters :
    (∃ t, exec .ld_HL_d16 ready = .next t) ∧ mayWriteReg Instr.ld_HL_d16.form .A = false ∧
      (∃ t, exec .pop_AF ready = .next t) ∧ mayWriteReg Instr.pop_AF.form .B = false := by
  simp only [next_iff]
  decide

theorem witness_StackPointerAndMemoryChangeOnlyByTheirWriters :
    (∃ t, exec .pop_DE ready = .next t) ∧ mayWriteMem ready Instr.pop_DE.form = false ∧
      (∃ t, exec .call_Z_a16 ready = .next t) ∧ mayWriteSp ready Instr.call_Z_a16.form = false ∧
      mayWriteMem ready Instr.call_Z_a16.form = false := by
  simp only [next_iff]
  decide

theorem witness_SuccessorPcIsPcPlusLength :
    (∃ t, exec .ld_indHL_d8 ready = .next t) ∧ isBranch Instr.ld_indHL_d8.form = false ∧
      (∃ t, exec .nop (readyPc 0xFFFF) = .next t) ∧ isBranch Instr.nop.form = false := by
  simp only [next_iff]
  decide

/-- A running machine that stays running, one that halts, and a halted one. -/
theorem witness_OnlyHaltEntersTheHaltedState :
    (∃ t, step (running 0x0100 [0x00]) = .next t) ∧ (∃ t, step (running 0x0100 [0x76]) = .next t) ∧
      memRead (running 0x0100 [0x76]) 0x0100 = .ok 0x76 ∧
      ∃ t, step { State.reset with halted := true } = .next t := by
  simp only [read_iff, next_iff]
  decide

theorem witness_StepKeepsMemoryCanonical :
    MemoryCanonical (running 0x0100 [0x36, 0xAB]) ∧ (∃ t, step { running 0x0100 [0x36, 0xAB] with h := 0xC0 } = .next t) ∧
      MemoryCanonical { running 0x0100 [0x36, 0xAB] with h := 0xC0 } := by
  simp only [next_iff, MemoryCanonical]
  decide

theorem witness_StepKeepsBootModeAndParameters :
    ∃ t, step { cartMachine true with params := ⟨.postResult, .conventional, .preserve⟩ } = .next t :=
  next_iff.2 (by decide)

/-- Each of the three moves, the reset included. -/
theorem witness_HostMovesKeepTheInvariant :
    construct standardParams none (List.replicate 32768 unlistedByte) = .next State.reset ∧
      MemoryCanonical (Session.mk State.reset none).machine ∧
      (∃ y, makeMove ⟨State.reset, none⟩ .step = some y) ∧ (∃ y, makeMove ⟨State.reset, none⟩ .disableBoot = some y) ∧
      makeMove ⟨State.reset, none⟩ (.reset none (List.replicate 32768 unlistedByte)) = some ⟨State.reset, none⟩ := by
  refine ⟨test_construct_zero_cartridge.1, rfl, ⟨_, rfl⟩, ⟨_, rfl⟩, ?_⟩
  have h : construct State.reset.params none (List.replicate 32768 unlistedByte) = .next State.reset :=
    test_construct_zero_cartridge.1
  simp only [makeMove, callReset, h]

theorem witness_FailedStepLeavesTheMachine :
    (Session.mk (running 0x0000 [0xC5]) none).stopped = none ∧
      step (Session.mk (running 0x0000 [0xC5]) none).machine = .fault (.addressOutOfRange 0xFFFF) := by
  simp only [fault_iff]
  decide

/-- Two states that differ in a hidden byte, and a step that succeeds. -/
theorem witness_HiddenRomCannotBeObserved :
    let s := cartMachine true
    let s' := { s with mem := { s.mem with rom0 := [(0, 0x77), (0x3FFF, 0x11)] } }
    s.bootActive = true ∧ MemoryCanonical s ∧ MemoryCanonical s' ∧ sameButHidden s s' ∧ s ≠ s' ∧
      (∃ t, step s = .next t) ∧ (0xFF : Nat) ≤ 0x00FF := by
  refine ⟨rfl, rfl, rfl, ⟨rfl, ?_⟩, by decide, ⟨_, rfl⟩, by decide⟩
  intro arr off h
  cases arr <;> try rfl
  have ho : (0 : Nat) ≠ off := by
    rintro rfl
    exact h ⟨rfl, by decide⟩
  simp [cartMachine, Memory.read, Memory.cells, getCell, ho]

end Sys2Proof.Tests
end

section
/-! PROOF. The family 10_state.md: what every instruction and every step changes and leaves unchanged (R22, R26, R30, R34
to R37, R65), the registers, pairs, flags and conditions (R21 to R31), and the state after reset and construction (R40). -/

namespace Sys2Proof.Machine

open Sys2Proof.Safety

/-! ### The state an instruction leaves, as field updates of the state before it -/

/-- What each variant of R35 leaves when it succeeds, as field updates of `s`. The memory `m` of a store, a push or a
taken call is canonical where the memory of `s` is. -/
inductive ExecEffect (s : State) : Form → State → Prop
  | alu (op : AluOp) (src : Src8) (res : Byte) (f : Flags) :
      ExecEffect s (.alu op src) (((s.setReg .A res).setFlags f).setPc (s.pc + srcAdvance src))
  | loadReg (r : Reg8) (src : Src8) (v : Byte) :
      ExecEffect s (.ld8 (.reg r) src) ((s.setReg r v).setPc (s.pc + srcAdvance src))
  | store (src : Src8) (m : Memory) (hm : s.mem.wf = true → m.wf = true) :
      ExecEffect s (.ld8 .indHL src) ((s.setMem m).setPc (s.pc + srcAdvance src))
  | loadWord (d : Dst16) (v : Word) : ExecEffect s (.ld16 d) ((s.setDst16 d v).setPc (s.pc + 3))
  | push (p : Pair) (m : Memory) (hm : s.mem.wf = true → m.wf = true) :
      ExecEffect s (.push p) (((s.setMem m).setSp (s.sp - 2)).setPc (s.pc + 1))
  | pop (p : Pair) (v : Word) : ExecEffect s (.pop p) (((s.setSp (s.sp + 2)).setPair p v).setPc (s.pc + 1))
  | jump (cc : Cond) (target : Word) : ExecEffect s (.jp cc) (s.setPc target)
  | callTaken (cc : Cond) (target : Word) (m : Memory) (hc : holds s.flags cc = true)
      (hm : s.mem.wf = true → m.wf = true) :
      ExecEffect s (.call cc) (((s.setMem m).setSp (s.sp - 2)).setPc target)
  | callNotTaken (cc : Cond) (hc : holds s.flags cc = false) : ExecEffect s (.call cc) (s.setPc (s.pc + 3))
  | retTaken (cc : Cond) (target : Word) (hc : holds s.flags cc = true) :
      ExecEffect s (.ret cc) ((s.setSp (s.sp + 2)).setPc target)
  | retNotTaken (cc : Cond) (hc : holds s.flags cc = false) : ExecEffect s (.ret cc) (s.setPc (s.pc + 1))
  | swapReg (r : Reg8) (v : Byte) :
      ExecEffect s (.swap (.reg r))
        (((s.setReg r v).setFlags (flagsAfterSwap s.params.swapFlags s.flags v)).setPc (s.pc + 2))
  | swapMem (v : Byte) (m : Memory) (hm : s.mem.wf = true → m.wf = true) :
      ExecEffect s (.swap .indHL)
        (((s.setMem m).setFlags (flagsAfterSwap s.params.swapFlags s.flags v)).setPc (s.pc + 2))
  | halt : ExecEffect s .halt ((s.setHalted true).setPc (s.pc + 1))
  | nop : ExecEffect s .nop (s.setPc (s.pc + 1))

/-- A write operand that succeeds writes its register, or only the memory, whose canonical form it keeps (R87). -/
theorem write8_effect {s u : State} {d : Dst8} {v : Byte} (h : write8 s d v = .ok u) :
    (∃ r, d = .reg r ∧ u = s.setReg r v) ∨
      (d = .indHL ∧ ∃ m, u = s.setMem m ∧ (s.mem.wf = true → m.wf = true)) := by
  obtain ⟨-, -, -, -, -, -, hwf⟩ := write8_frame h
  rcases write8_shape h with hreg | ⟨rfl, m, rfl⟩
  · exact .inl hreg
  · exact .inr ⟨rfl, m, rfl, hwf⟩

/-- `exec_next_cases` with every memory written as a field update. -/
theorem execEffect_of_exec {i : Instr} {s t : State} (h : exec i s = .next t) : ExecEffect s i.form t := by
  rcases exec_next_cases h with ⟨op, src, res, f, hf, rfl⟩ | ⟨d, src, v, u, hf, hu, rfl⟩ | ⟨d, v, hf, rfl⟩ |
    ⟨p, v, u, hf, hu, rfl⟩ | ⟨p, v, hf, rfl⟩ | ⟨cc, v, hf, rfl⟩ | ⟨cc, v, w, u, hf, hc, hu, rfl⟩ | ⟨cc, hf, hc, rfl⟩ |
    ⟨cc, v, hf, hc, rfl⟩ | ⟨cc, hf, hc, rfl⟩ | ⟨d, v, u, hf, hu, rfl⟩ | ⟨hf, rfl⟩ | ⟨hf, rfl⟩ <;> rw [hf]
  · exact .alu op src res f
  · rcases write8_effect hu with ⟨r, rfl, rfl⟩ | ⟨rfl, m, rfl, hm⟩
    · exact .loadReg r src v
    · exact .store src m hm
  · exact .loadWord d v
  · obtain ⟨e, hm⟩ := push_frame hu
    rw [e]
    exact .push p u.mem hm
  · exact .pop p v
  · exact .jump cc v
  · obtain ⟨e, hm⟩ := push_frame hu
    rw [e]
    exact .callTaken cc w u.mem hc hm
  · exact .callNotTaken cc hc
  · exact .retTaken cc v hc
  · exact .retNotTaken cc hc
  · rcases write8_effect hu with ⟨r, rfl, rfl⟩ | ⟨rfl, m, rfl, hm⟩
    · exact .swapReg r v
    · exact .swapMem v m hm
  · exact .halt
  · exact .nop

/-! ### What every instruction keeps -/

theorem ExecEffect.mem_wf {s t : State} {f : Form} (h : ExecEffect s f t) (hw : s.mem.wf = true) : t.mem.wf = true := by
  cases h with
  | store _ _ hm | push _ _ hm | callTaken _ _ _ _ hm | swapMem _ _ hm => simpa using hm hw
  | _ => simpa using hw

theorem ExecEffect.bootActive_eq {s t : State} {f : Form} (h : ExecEffect s f t) : t.bootActive = s.bootActive := by
  cases h <;> simp

theorem ExecEffect.params_eq {s t : State} {f : Form} (h : ExecEffect s f t) : t.params = s.params := by
  cases h <;> simp

/-- R36: HALT alone enters the halted state. -/
theorem ExecEffect.halted_iff {s t : State} {f : Form} (h : ExecEffect s f t) :
    t.halted = true ↔ s.halted = true ∨ f = .halt := by
  cases h <;> simp

/-! ### What every step keeps -/

/-- A successful step is the halted no-op (R203) or the effect of one fetched instruction (R202). -/
theorem step_next_effect {s t : State} (h : step s = .next t) :
    t = s ∨ ∃ i, fetch s = .ok i ∧ ExecEffect s i.form t := by
  rcases step_eq_next.1 h with ⟨-, rfl⟩ | ⟨-, i, hfetch, hexec⟩
  · exact .inl rfl
  · exact .inr ⟨i, hfetch, execEffect_of_exec hexec⟩

/-- Settles O55: a store, a push and a taken call keep the canonical form, and nothing else writes memory. -/
theorem stepKeepsMemoryCanonical : Obligations.StepKeepsMemoryCanonical := by
  intro s t hw h
  rcases step_next_effect h with rfl | ⟨i, -, heff⟩
  · exact hw
  · exact heff.mem_wf hw

/-- Settles O56: no effect of an instruction writes `boot_active` or the parameters. -/
theorem stepKeepsBootModeAndParameters : Obligations.StepKeepsBootModeAndParameters := by
  intro s t h
  rcases step_next_effect h with rfl | ⟨i, -, heff⟩
  · exact ⟨rfl, rfl⟩
  · exact ⟨heff.bootActive_eq, heff.params_eq⟩

/-! ### Construction -/

/-- R250 to R252: images of the right sizes are accepted, and the state is the reset state with the images placed. -/
theorem construct_eq_next (p : Params) {boot : Option (List Byte)} {cart : List Byte}
    (hboot : bootImageOk boot = true) (hcart : minCartSize ≤ cart.length) :
    construct p boot cart =
      .next { State.reset with bootActive := boot.isSome, mem := imageMemory boot cart, params := p } := by
  simp [construct, hboot, hcart]

theorem bootImageOk_iff (boot : Option (List Byte)) :
    bootImageOk boot = true ↔ ∀ img, boot = some img → img.length = bootImageSize := by
  cases boot <;> simp [bootImageOk]

/-- D10: the cartridge bytes from 0x8000 up are not placed. -/
theorem imageMemory_take (boot : Option (List Byte)) (cart : List Byte) :
    imageMemory boot (cart.take minCartSize) = imageMemory boot cart := by
  simp [imageMemory, minCartSize, romBankSize, List.take_take, List.drop_take]

theorem construct_take (p : Params) (boot : Option (List Byte)) (cart : List Byte) (h : minCartSize ≤ cart.length) :
    construct p boot (cart.take minCartSize) = construct p boot cart := by
  simp [construct, imageMemory_take, h]

/-- An array filled from its first cell holds the bytes in their order. -/
theorem getCell_cellsFrom_zero (bs : List Byte) (k : Nat) : getCell (cellsFrom 0 bs) k = bs.getD k unlistedByte := by
  simpa using getCell_cellsFrom bs 0 k

theorem imageMemory_read_rom0 (boot : Option (List Byte)) (cart : List Byte) {k : Nat} (h : k < romBankSize) :
    (imageMemory boot cart).read .rom0 k = cart.getD k 0 := by
  have hcell : (imageMemory boot cart).read .rom0 k = (cart.take romBankSize).getD k unlistedByte :=
    getCell_cellsFrom_zero _ k
  simp [hcell, List.getD_eq_getElem?_getD, h, unlistedByte]

theorem imageMemory_read_romN (boot : Option (List Byte)) (cart : List Byte) {k : Nat} (h : k < romBankSize) :
    (imageMemory boot cart).read .romN k = cart.getD (romBankSize + k) 0 := by
  have hcell : (imageMemory boot cart).read .romN k = ((cart.drop romBankSize).take romBankSize).getD k unlistedByte :=
    getCell_cellsFrom_zero _ k
  simp [hcell, List.getD_eq_getElem?_getD, List.getElem?_drop, h, unlistedByte]

/-- The boot array holds the image, and zeros where there is none. -/
theorem imageMemory_read_boot (boot : Option (List Byte)) (cart : List Byte) (k : Nat) :
    (imageMemory boot cart).read .boot k = (boot.getD []).getD k 0 :=
  getCell_cellsFrom_zero _ k

/-- Settles O3: construction gives the reset state with the images placed, and each array reads as its image. -/
theorem constructPlacesImages : Obligations.ConstructPlacesImages := by
  intro p boot cart hboot hcart
  refine ⟨(construct_take p boot cart hcart).symm, _,
    construct_eq_next p ((bootImageOk_iff boot).2 hboot) hcart, ?_, rfl, rfl, rfl, rfl, rfl, rfl, ?_, ?_, ?_, ?_⟩
  · intro r
    cases r <;> rfl
  · exact fun k hk => ⟨imageMemory_read_rom0 boot cart hk, imageMemory_read_romN boot cart hk⟩
  · rintro img k rfl -
    exact imageMemory_read_boot (some img) cart k
  · rintro k rfl
    exact imageMemory_read_boot none cart k
  · exact fun k => ⟨rfl, rfl, rfl, rfl⟩

/-! ### The writers of the flags, the registers, `sp` and the memory -/

/-- R30: only the arithmetic family, POP AF and SWAP under `conventional` change a flag. -/
theorem ExecEffect.flags_eq {s t : State} {f : Form} (h : ExecEffect s f t) (hf : mayWriteFlags s f = false) :
    t.flags = s.flags := by
  cases h with
  | alu => cases hf
  | pop p v =>
    have hp : p ≠ .AF := by
      rintro rfl
      cases hf
    simp [State.setPair_flags _ _ _ hp]
  | swapReg | swapMem =>
    have hpreserve : s.params.swapFlags = .preserve := by
      cases hm : s.params.swapFlags <;> simp_all [mayWriteFlags]
    simp [hpreserve, flagsAfterSwap]
  | _ => simp

/-- Settles O50, by the effect of each variant. -/
theorem flagsChangeOnlyByTheirWriters : Obligations.FlagsChangeOnlyByTheirWriters :=
  fun _ _ _ h hf => (execEffect_of_exec h).flags_eq hf

/-- A pair write leaves the registers alone that are not of the pair (R24). -/
theorem readReg_setPair_of_not_named {p : Pair} {r : Reg8} (h : mayWriteReg (.pop p) r = false) (s : State) (v : Word) :
    readReg (s.setPair p v) r = readReg s r := by
  cases p <;> cases r <;> simp_all [mayWriteReg, State.setPair, readReg]

theorem readReg_setDst16_of_not_named {d : Dst16} {r : Reg8} (h : mayWriteReg (.ld16 d) r = false) (s : State)
    (v : Word) : readReg (s.setDst16 d v) r = readReg s r := by
  cases d with
  | BC => exact readReg_setPair_of_not_named (p := .BC) h s v
  | DE => exact readReg_setPair_of_not_named (p := .DE) h s v
  | HL => exact readReg_setPair_of_not_named (p := .HL) h s v
  | SP => exact readReg_setSp s v r

/-- R26: no variant changes a register its row of the table does not name. -/
theorem ExecEffect.readReg_eq {s t : State} {f : Form} {r : Reg8} (h : ExecEffect s f t)
    (hr : mayWriteReg f r = false) : readReg t r = readReg s r := by
  cases h with
  | alu | loadReg | swapReg =>
    have hne := beq_eq_false_iff_ne.1 hr
    simp [hne.symm]
  | loadWord => simp [readReg_setDst16_of_not_named hr]
  | pop => simp [readReg_setPair_of_not_named hr]
  | _ => simp

/-- Settles O51, by the effect of each variant. -/
theorem registersChangeOnlyByTheirWriters : Obligations.RegistersChangeOnlyByTheirWriters :=
  fun _ _ _ _ h hr => (execEffect_of_exec h).readReg_eq hr

/-- Of the 16-bit destinations only SP is the stack pointer (R136). -/
theorem State.setDst16_sp (s : State) (d : Dst16) (v : Word) (h : d ≠ .SP) : (s.setDst16 d v).sp = s.sp := by
  cases d with
  | SP => exact absurd rfl h
  | _ => rfl

/-- R34: only LD SP,d16, PUSH, POP and a taken CALL or RET write `sp`. -/
theorem ExecEffect.sp_eq {s t : State} {f : Form} (h : ExecEffect s f t) (hf : mayWriteSp s f = false) :
    t.sp = s.sp := by
  cases h with
  | push | pop => cases hf
  | callTaken _ _ _ hc | retTaken _ _ hc => cases hc.symm.trans hf
  | loadWord d v =>
    have hd : d ≠ .SP := by
      rintro rfl
      cases hf
    simp [State.setDst16_sp _ _ _ hd]
  | _ => simp

/-- R65: only a `(HL)` destination, PUSH and a taken CALL write memory. -/
theorem ExecEffect.mem_eq {s t : State} {f : Form} (h : ExecEffect s f t) (hf : mayWriteMem s f = false) :
    t.mem = s.mem := by
  cases h with
  | store | push | swapMem => cases hf
  | callTaken _ _ _ hc => cases hc.symm.trans hf
  | _ => simp

/-- Settles O52, by the effect of each variant. -/
theorem stackPointerAndMemoryChangeOnlyByTheirWriters : Obligations.StackPointerAndMemoryChangeOnlyByTheirWriters :=
  fun _ _ _ h => ⟨(execEffect_of_exec h).sp_eq, (execEffect_of_exec h).mem_eq⟩

/-! ### HALT and its byte -/

theorem decodeOrRaise_eq_ok {b : Byte} {page : Page} {i : Instr} :
    decodeOrRaise b page = .ok i ↔ decodeByte b (page == .prefixed) = some i := by
  unfold decodeOrRaise
  cases decodeByte b (page == .prefixed) <;> simp

/-- A fetch that succeeds looked up the byte at `pc`, or the byte after the escape at `pc` (R89, R202). -/
theorem fetch_eq_ok {s : State} {i : Instr} (h : fetch s = .ok i) :
    (∃ b, memRead s s.pc = .ok b ∧ b ≠ prefixEscape ∧ decodeByte b false = some i) ∨
      (memRead s s.pc = .ok prefixEscape ∧ ∃ b, memRead s (s.pc + 1) = .ok b ∧ decodeByte b true = some i) := by
  obtain ⟨b, hb, h⟩ := bind_eq_ok.1 h
  split at h
  next he =>
    obtain ⟨b', hb', h⟩ := bind_eq_ok.1 h
    exact .inr ⟨he ▸ hb, b', hb', decodeOrRaise_eq_ok.1 h⟩
  next he => exact .inl ⟨b, hb, he, decodeOrRaise_eq_ok.1 h⟩

theorem form_eq_halt_iff (i : Instr) : i.form = .halt ↔ i = .halt := by
  cases i <;> simp [Instr.form]

/-- D1: of the plain page, HALT is exactly the byte 0x76. -/
theorem decodeByte_plain_eq_halt_iff (b : Byte) : decodeByte b false = some .halt ↔ b = 0x76 := by
  revert b; decide

theorem decodeByte_prefixed_ne_halt (b : Byte) : decodeByte b true ≠ some .halt := by
  revert b; decide

/-- The fetched instruction is HALT exactly when the byte at `pc` is 0x76. -/
theorem fetch_halt_iff {s : State} {i : Instr} (h : fetch s = .ok i) :
    i.form = .halt ↔ memRead s s.pc = .ok 0x76 := by
  rw [form_eq_halt_iff]
  rcases fetch_eq_ok h with ⟨b, hb, -, hdec⟩ | ⟨hesc, b, -, hdec⟩
  · rw [hb, Except.ok.injEq, ← decodeByte_plain_eq_halt_iff, hdec, Option.some.injEq]
  · have hi : i ≠ .halt := by
      rintro rfl
      exact decodeByte_prefixed_ne_halt b hdec
    simp [hi, hesc, prefixEscape]

/-- Settles O54: a halted step keeps the state, and of the fetched instructions HALT alone sets the bit. -/
theorem onlyHaltEntersTheHaltedState : Obligations.OnlyHaltEntersTheHaltedState := by
  refine ⟨fun s t h => ?_, fun _ => rfl⟩
  rcases step_eq_next.1 h with ⟨hh, rfl⟩ | ⟨-, i, hfetch, hexec⟩
  · simp [hh]
  · rw [(execEffect_of_exec hexec).halted_iff, fetch_halt_iff hfetch]

/-! ### Reset -/

theorem emptyMemory_read (arr : Backing) (off : Nat) : emptyMemory.read arr off = 0 := by
  cases arr <;> rfl

/-- Settles O1. -/
theorem resetStateValues : Obligations.ResetStateValues := by
  refine ⟨fun r => ?_, rfl, rfl, rfl, rfl, rfl, rfl, emptyMemory_read, rfl⟩
  cases r <;> rfl

/-- Settles O2. -/
theorem resetMemoryIsCanonical : Obligations.ResetMemoryIsCanonical :=
  emptyMemory_wf

/-! ### Registers, pairs, flags and conditions -/

/-- A register write is an update of the seven register cells alone (R22). -/
theorem setReg_eq_update (s : State) (r : Reg8) (v : Byte) :
    ∃ a b c d e h l, s.setReg r v = { s with a := a, b := b, c := c, d := d, e := e, h := h, l := l } := by
  cases r <;> exact ⟨_, _, _, _, _, _, _, rfl⟩

/-- Settles O20. -/
theorem registerWriteChangesOneCell : Obligations.RegisterWriteChangesOneCell := by
  intro s r v
  refine ⟨?_, fun r' hne => ?_, setReg_eq_update s r v⟩
  · rw [readReg_setReg, if_pos rfl]
  · rw [readReg_setReg, if_neg hne.symm]

/-- `{hi, lo}` of R8 is the concatenation of the bit vectors. -/
theorem joinBytes_eq_append (hi lo : Byte) : joinBytes hi lo = hi ++ lo := by
  apply BitVec.eq_of_toNat_eq
  rw [toNat_joinBytes, BitVec.toNat_append, ← Nat.shiftLeft_add_eq_or_of_lt lo.isLt, Nat.shiftLeft_eq]

/-- The layout of F (R28). -/
theorem encodeFlags_eq_append (f : Flags) :
    encodeFlags f = BitVec.ofBool f.z ++ BitVec.ofBool f.n ++ BitVec.ofBool f.h ++ BitVec.ofBool f.c ++
      (0 : BitVec 4) := by
  obtain ⟨z, n, h, c⟩ := f
  revert z n h c
  decide

/-- Settles O21. -/
theorem pairViewsAreConcatenations : Obligations.PairViewsAreConcatenations :=
  fun s => ⟨joinBytes_eq_append .., joinBytes_eq_append .., joinBytes_eq_append .., joinBytes_eq_append ..,
    encodeFlags_eq_append s.flags⟩

/-- R29: bits 3 to 0 of F have no storage. -/
theorem encodeFlags_decodeFlags (b : Byte) : encodeFlags (decodeFlags b) = b &&& 0xF0 := by
  revert b
  decide

theorem decodeFlags_encodeFlags (f : Flags) : decodeFlags (encodeFlags f) = f := by
  obtain ⟨z, n, h, c⟩ := f
  revert z n h c
  decide

/-- Settles O23. -/
theorem flagCodecLaws : Obligations.FlagCodecLaws :=
  ⟨encodeFlags_decodeFlags, decodeFlags_encodeFlags⟩

theorem joinBytes_and_low (hi lo mask : Byte) : joinBytes hi (lo &&& mask) = joinBytes hi lo &&& (0xFF#8 ++ mask) := by
  rw [joinBytes_eq_append, joinBytes_eq_append, BitVec.and_append]
  congr 1
  exact (BitVec.and_allOnes (x := hi)).symm

theorem readPair_setPair_same {p : Pair} (h : p ≠ .AF) (s : State) (v : Word) : readPair (s.setPair p v) p = v := by
  cases p with
  | AF => exact absurd rfl h
  | _ => exact joinBytes_high_low v

/-- R25, C4: AF written and read back loses the low nibble of F. -/
theorem readPair_setPair_AF (s : State) (v : Word) : readPair (s.setPair .AF v) .AF = v &&& 0xFFF0 := by
  calc readPair (s.setPair .AF v) .AF
      = joinBytes (highByte v) (encodeFlags (decodeFlags (lowByte v))) := rfl
    _ = joinBytes (highByte v) (lowByte v) &&& (0xFF#8 ++ 0xF0#8) := by
      rw [encodeFlags_decodeFlags]
      exact joinBytes_and_low ..
    _ = v &&& 0xFFF0 := by
      rw [joinBytes_high_low]
      rfl

theorem readPair_setPair_other {p q : Pair} (h : p ≠ q) (s : State) (v : Word) :
    readPair (s.setPair p v) q = readPair s q := by
  cases p <;> cases q <;> simp_all [State.setPair, readPair]

/-- Settles O22. -/
theorem pairWriteRoundTrip : Obligations.PairWriteRoundTrip :=
  fun s v => ⟨fun _ hp => readPair_setPair_same hp s v, readPair_setPair_AF s v,
    fun _ _ hpq => readPair_setPair_other hpq s v⟩

/-- Settles O24: each condition is its own arm of `holds`. -/
theorem conditionCodeValues : Obligations.ConditionCodeValues :=
  fun _ => ⟨rfl, rfl, rfl, rfl, rfl⟩

end Sys2Proof.Machine
end

section
/-! PROOF. The family 20_memory.md: the region table and echo RAM (R51 to R55), what a write to the bus changes (R59,
R67), the video RAM window (R60, R268) and `disable_boot` (R264). -/

namespace Sys2Proof.Machine

open Sys2Proof.Safety

/-! ### The region table -/

/-- R52: the overlay covers no address from 0x0100 up. -/
theorem route_of_not_covered {x : Word} {ba : Bool} (h : ba = false ∨ 0x0100 ≤ x) : route x ba = route x false := by
  rcases h with rfl | h
  · rfl
  · have hx : ¬x.toNat ≤ 0x00FF := by bv_omega
    simp [route, hx]

/-- R55: the unmapped addresses, as words. -/
theorem route_eq_none_iff {x : Word} {ba : Bool} :
    route x ba = none ↔ (0xFE00 ≤ x ∧ x ≤ 0xFF7F) ∨ x = 0xFFFF := by
  rw [route_eq_none, ← BitVec.toNat_inj]
  exact Iff.rfl

/-- Settles O14: below 0x0100 in boot mode by the overlay's branch, elsewhere by the table without it. -/
theorem regionTableRoutes : Obligations.RegionTableRoutes := by
  intro x ba
  refine ⟨?_, ?_, ?_, ?_, ?_, ?_, ?_, ?_, route_eq_none_iff.2⟩
  · rintro rfl hx
    have hx : x.toNat ≤ 0x00FF := hx
    simp [route, hx]
  · intro h hx
    have hx : x.toNat ≤ 0x3FFF := hx
    rw [route_of_not_covered h]
    simp [route, hx]
  all_goals
    intro hlo hhi
    rw [route_of_not_covered (.inr (by bv_omega))]
    simp only [BitVec.le_def, BitVec.ofNat_eq_ofNat, BitVec.toNat_ofNat] at hlo hhi
    simp (disch := omega) only [route, Bool.false_and, Bool.false_eq_true, if_false, if_pos, if_neg]

/-- Settles O15: an access fails exactly where `route` names no array. -/
theorem accessFailsExactlyWhereUnmapped : Obligations.AccessFailsExactlyWhereUnmapped := by
  intro s x v
  refine ⟨fun f => ?_, fun f => ?_⟩
  · rw [memRead_eq_error, route_eq_none_iff, and_comm]
  · rw [memWrite_eq_error, route_eq_none_iff, and_comm]

/-! ### Echo RAM -/

/-- The lowest address that names an array's first byte (R51). -/
def regionBase : Backing → Nat
  | .boot | .rom0 => 0x0000
  | .romN => 0x4000
  | .vram => 0x8000
  | .eram => 0xA000
  | .wram => 0xC000
  | .hram => 0xFF80

/-- An address is its byte's place in the byte's region, or the echo of it 0x2000 above (R51, R54). -/
theorem toNat_of_route {x : Word} {ba : Bool} {arr : Backing} {off : Nat} (h : route x ba = some (arr, off)) :
    x.toNat = regionBase arr + off ∨ (x.toNat = regionBase arr + off + 0x2000 ∧ arr = .wram ∧ off ≤ 0x1DFF) := by
  rcases route_eq_some h with ⟨-, -, rfl, hoff⟩ | ⟨-, -, rfl, hoff⟩ | ⟨_, _, rfl, hoff⟩ | ⟨_, _, rfl, hoff⟩ |
    ⟨_, _, rfl, hoff⟩ | ⟨_, _, rfl, hoff⟩ | ⟨_, _, rfl, hoff⟩ | ⟨_, _, rfl, hoff⟩ <;>
    simp only [regionBase, reduceCtorEq, false_and, and_false, or_false, true_and] <;> omega

theorem sameByte_eq_true {s : State} {x y : Word} :
    sameByte s x y = true ↔ route x s.bootActive = route y s.bootActive :=
  beq_iff_eq

/-- R54: an echo address is routed as its working RAM address. -/
theorem route_echo {x : Word} (ba : Bool) (hlo : 0xC000 ≤ x) (hhi : x ≤ 0xDDFF) :
    route (x + 0x2000) ba = route x ba := by
  obtain ⟨-, -, -, -, -, -, hecho, -⟩ := regionTableRoutes (x + 0x2000) ba
  obtain ⟨-, -, -, -, -, hwram, -⟩ := regionTableRoutes x ba
  rw [hecho (by bv_omega) (by bv_omega), hwram hlo (by bv_omega)]
  have hoff : (x + 0x2000).toNat - 0xE000 = x.toNat - 0xC000 := by bv_omega
  rw [hoff]

/-- Settles O16: an address is determined by its byte, up to the echo. -/
theorem echoRamAliasesWorkingRam : Obligations.EchoRamAliasesWorkingRam := by
  intro s x y v
  refine ⟨fun hlo hhi => ?_, fun hx hxy => ?_⟩
  · obtain ⟨-, -, -, -, -, hwram, -⟩ := regionTableRoutes x s.bootActive
    have hx := hwram hlo (by bv_omega)
    have hecho := (route_echo s.bootActive hlo hhi).trans hx
    simp only [memRead, memWrite, hx, hecho, and_self]
  · obtain ⟨arr, off, hx⟩ := mapped_eq_true.1 hx
    have hy := (sameByte_eq_true.1 hxy).symm.trans hx
    rcases toNat_of_route hx with hx | ⟨hx, rfl, hoff⟩ <;> rcases toNat_of_route hy with hy | ⟨hy, harr, hoff'⟩
    · exact .inl (by bv_omega)
    · subst harr
      simp only [regionBase] at hx hy
      exact .inr (.inl (by bv_omega))
    · simp only [regionBase] at hx hy
      exact .inr (.inr (by bv_omega))
    · exact .inl (by bv_omega)

/-! ### Writes to the bus -/

theorem memRead_of_route {s : State} {x : Word} {arr : Backing} {off : Nat}
    (h : route x s.bootActive = some (arr, off)) : memRead s x = .ok (s.mem.read arr off) :=
  memRead_eq_ok.2 ⟨arr, off, h, rfl⟩

/-- Settles O17, by what one write does to every later read. -/
theorem writeIsReadBackAndNothingElseChanges : Obligations.WriteIsReadBackAndNothingElseChanges := by
  intro s x v
  refine ⟨fun hcanonical hx => ?_, memWrite_of_unmapped v⟩
  obtain ⟨m, hwrite⟩ := memWrite_of_mapped v hx
  have hback : ∀ y, sameByte s x y = true → memRead (s.setMem m) y = .ok v := fun y hxy => by
    rw [memRead_after_memWrite hcanonical hwrite, if_pos hxy]
  have hother : ∀ y, sameByte s x y = false → memRead (s.setMem m) y = memRead s y := fun y hxy => by
    rw [memRead_after_memWrite hcanonical hwrite, if_neg (Bool.eq_false_iff.1 hxy)]
  refine ⟨m, hwrite, ⟨?_, ?_, ?_⟩, hback⟩ <;> simp only [List.forall_mem_singleton]
  · exact hback x (sameByte_eq_true.2 rfl)
  · exact hother
  · exact (memWrite_frame hwrite).2

/-! ### Video RAM and the end of boot mode -/

theorem readVideo_eq_some {s : State} {x : Word} {v : Byte} (hlo : 0x8000 ≤ x) (hhi : x ≤ 0x9FFF) :
    readVideo s x = some v ↔ memRead s x = .ok v := by
  have hwindow : 0x8000 ≤ x.toNat ∧ x.toNat ≤ 0x9FFF := ⟨hlo, hhi⟩
  cases h : memRead s x <;> simp [readVideo, hwindow, h, Except.toOption]

/-- Settles O18: the window is mapped, and a write there is read back (R59). -/
theorem videoReadIsTheBusByte : Obligations.VideoReadIsTheBusByte := by
  intro s x v hlo hhi
  refine ⟨readVideo_eq_some hlo hhi, fun hcanonical => ?_⟩
  obtain ⟨-, -, -, hvram, -⟩ := regionTableRoutes x s.bootActive
  have hx : mapped s x = true := mapped_eq_true.2 ⟨_, _, hvram hlo hhi⟩
  obtain ⟨m, hwrite, -, hback⟩ := (writeIsReadBackAndNothingElseChanges s x v).1 hcanonical hx
  exact ⟨_, hwrite, (readVideo_eq_some hlo hhi).2 (hback x (sameByte_eq_true.2 rfl))⟩

/-- Settles O19, by the rows of the region table below 0x4000. -/
theorem disableBootUncoversRomBank0 : Obligations.DisableBootUncoversRomBank0 := by
  intro s x
  refine ⟨fun hx hb => ?_, fun hx => ?_, fun hx => ?_, rfl, fun hb => ?_⟩
  · obtain ⟨hboot, -⟩ := regionTableRoutes x s.bootActive
    exact memRead_of_route (hboot hb hx)
  · obtain ⟨-, hrom0, -⟩ := regionTableRoutes x false
    exact memRead_of_route (s := disableBoot s) (hrom0 (.inl rfl) (by bv_omega))
  · simp [memRead, disableBoot, route_of_not_covered (ba := s.bootActive) (.inr hx)]
  · simp [disableBoot, State.setBootActive, ← hb]

end Sys2Proof.Machine
end

section
/-! PROOF. The family 20_memory.md: the boot overlay hides ROM bank 0 below 0x0100 from every step (R52). Replacing the
hidden bytes by those of any memory commutes with each access, so with each meaning and with the step; a step can then
neither depend on the hidden bytes nor change them. -/

namespace Sys2Proof.Machine

open Sys2Proof.Safety

/-! ### The hidden bytes of another array put into an array -/

/-- The cells of `cs`, with those below 0x0100 taken from `src`. -/
def spliceHidden (src cs : List Host.Cell) : List Host.Cell :=
  src.filter (fun c => c.1 ≤ 0x00FF) ++ cs.filter (fun c => 0x00FF < c.1)

theorem spliceHidden_cons_hidden {j : Nat} (h : j ≤ 0x00FF) (v : Byte) (src cs : List Host.Cell) :
    spliceHidden ((j, v) :: src) cs = (j, v) :: spliceHidden src cs := by
  simp [spliceHidden, h]

theorem spliceHidden_cons_visible {j : Nat} (h : ¬j ≤ 0x00FF) (v : Byte) (src cs : List Host.Cell) :
    spliceHidden ((j, v) :: src) cs = spliceHidden src cs := by
  simp [spliceHidden, h]

theorem spliceHidden_nil_cons_hidden {j : Nat} (h : j ≤ 0x00FF) (v : Byte) (cs : List Host.Cell) :
    spliceHidden [] ((j, v) :: cs) = spliceHidden [] cs := by
  simp [spliceHidden, h]

theorem spliceHidden_nil_cons_visible {j : Nat} (h : ¬j ≤ 0x00FF) (v : Byte) (cs : List Host.Cell) :
    spliceHidden [] ((j, v) :: cs) = (j, v) :: spliceHidden [] cs := by
  simp [spliceHidden, Nat.lt_of_not_le h]

/-- A read below 0x0100 reads `src`, and any other reads `cs`. -/
theorem getCell_spliceHidden (src cs : List Host.Cell) (k : Nat) :
    getCell (spliceHidden src cs) k = if k ≤ 0x00FF then getCell src k else getCell cs k := by
  induction src with
  | nil =>
    induction cs with
    | nil => simp [spliceHidden, getCell]
    | cons c rest ih =>
      obtain ⟨j, v⟩ := c
      by_cases hj : j ≤ 0x00FF
      · rw [spliceHidden_nil_cons_hidden hj, ih]
        grind [getCell]
      · rw [spliceHidden_nil_cons_visible hj]
        grind [getCell]
  | cons c rest ih =>
    obtain ⟨j, v⟩ := c
    by_cases hj : j ≤ 0x00FF
    · rw [spliceHidden_cons_hidden hj]
      grind [getCell]
    · rw [spliceHidden_cons_visible hj, ih]
      grind [getCell]

/-- A cell written above the hidden ones goes into the visible part. -/
theorem setCell_spliceHidden {k : Nat} (hk : 0x00FF < k) (src cs : List Host.Cell) (v : Byte) :
    setCell (spliceHidden src cs) k v = spliceHidden src (setCell cs k v) := by
  induction src with
  | nil =>
    induction cs with
    | nil => grind [setCell, spliceHidden]
    | cons c rest ih =>
      obtain ⟨j, w⟩ := c
      by_cases hj : j ≤ 0x00FF
      · have hjk : j < k := by omega
        rw [spliceHidden_nil_cons_hidden hj, ih, setCell, if_pos hjk, spliceHidden_nil_cons_hidden hj]
      · rw [spliceHidden_nil_cons_visible hj]
        grind [setCell, spliceHidden_nil_cons_visible]
  | cons c rest ih =>
    obtain ⟨j, w⟩ := c
    by_cases hj : j ≤ 0x00FF
    · have hjk : j < k := by omega
      rw [spliceHidden_cons_hidden hj, setCell, if_pos hjk, ih, spliceHidden_cons_hidden hj]
    · rw [spliceHidden_cons_visible hj, ih, spliceHidden_cons_visible hj]

/-- The visible part of a canonical array lists nothing below 0x0100. -/
theorem canonicalFrom_spliceHidden_nil {size lo : Nat} {cs : List Host.Cell} (h : canonicalFrom size lo cs = true) :
    canonicalFrom size (max lo 0x0100) (spliceHidden [] cs) = true := by
  induction cs generalizing lo with
  | nil => rfl
  | cons c rest ih =>
    obtain ⟨j, w⟩ := c
    obtain ⟨hlo, hsize, hw, hrest⟩ := (canonicalFrom_cons ..).1 h
    by_cases hj : j ≤ 0x00FF
    · rw [spliceHidden_nil_cons_hidden hj]
      exact canonicalFrom_mono (ih hrest) (by omega)
    · rw [spliceHidden_nil_cons_visible hj]
      exact (canonicalFrom_cons ..).2 ⟨by omega, hsize, hw, canonicalFrom_mono (ih hrest) (by omega)⟩

/-- Two canonical arrays are spliced into a canonical one. -/
theorem canonicalFrom_spliceHidden {size lo : Nat} {src cs : List Host.Cell} (hlo : lo ≤ 0x0100)
    (hsrc : canonicalFrom size lo src = true) (hcs : canonicalFrom size 0 cs = true) :
    canonicalFrom size lo (spliceHidden src cs) = true := by
  induction src generalizing lo with
  | nil => exact canonicalFrom_mono (canonicalFrom_spliceHidden_nil hcs) (by omega)
  | cons c rest ih =>
    obtain ⟨j, w⟩ := c
    obtain ⟨hj, hsize, hw, hrest⟩ := (canonicalFrom_cons ..).1 hsrc
    by_cases hjh : j ≤ 0x00FF
    · rw [spliceHidden_cons_hidden hjh]
      exact (canonicalFrom_cons ..).2 ⟨hj, hsize, hw, ih (by omega) hrest⟩
    · rw [spliceHidden_cons_visible hjh]
      exact ih hlo (canonicalFrom_mono hrest (by omega))

/-! ### The hidden bytes of another memory put into a memory -/

/-- Canonical memories with equal reads are equal. -/
theorem Memory.eq_of_read_eq {m m' : Memory} (hm : m.wf = true) (hm' : m'.wf = true)
    (h : ∀ arr off, m.read arr off = m'.read arr off) : m = m' := by
  have hcells : ∀ arr, m.cells arr = m'.cells arr := fun arr =>
    canonical_ext (m.wf_iff.1 hm arr) (m'.wf_iff.1 hm' arr) (h arr)
  exact (Memory.mk.injEq ..).mpr ⟨hcells .boot, hcells .rom0, hcells .romN, hcells .vram, hcells .eram, hcells .wram,
    hcells .hram⟩

/-- `m` with the bytes the boot overlay hides (R52) taken from `src`. -/
def Memory.withHiddenOf (m src : Memory) : Memory :=
  m.withCells .rom0 (spliceHidden (src.cells .rom0) (m.cells .rom0))

theorem Memory.read_withHiddenOf_hidden (m src : Memory) {off : Nat} (h : off ≤ 0x00FF) :
    (m.withHiddenOf src).read .rom0 off = src.read .rom0 off := by
  simp [Memory.read, Memory.withHiddenOf, getCell_spliceHidden, h]

theorem Memory.read_withHiddenOf_visible (m src : Memory) {arr : Backing} {off : Nat}
    (h : ¬(arr = .rom0 ∧ off ≤ 0x00FF)) : (m.withHiddenOf src).read arr off = m.read arr off := by
  by_cases harr : .rom0 = arr
  · subst harr
    have hoff : ¬off ≤ 0x00FF := fun hoff => h ⟨rfl, hoff⟩
    simp [Memory.read, Memory.withHiddenOf, getCell_spliceHidden, hoff]
  · simp [Memory.read, Memory.withHiddenOf, harr]

theorem Memory.wf_withHiddenOf {m src : Memory} (hm : m.wf = true) (hsrc : src.wf = true) :
    (m.withHiddenOf src).wf = true := by
  rw [Memory.wf_iff] at *
  intro arr
  by_cases harr : .rom0 = arr
  · subst harr
    simpa [Memory.wfAt, Memory.withHiddenOf] using
      canonicalFrom_spliceHidden (by omega) (hsrc .rom0) (hm .rom0)
  · simpa [Memory.wfAt, Memory.withHiddenOf, harr] using hm arr

/-- A canonical memory is any memory that agrees with it outside the hidden bytes, with its own hidden bytes. -/
theorem Memory.withHiddenOf_eq {m m' : Memory} (hm : m.wf = true) (hm' : m'.wf = true)
    (h : agreeOutsideHidden m m') : m.withHiddenOf m' = m' := by
  refine Memory.eq_of_read_eq (Memory.wf_withHiddenOf hm hm') hm' fun arr off => ?_
  by_cases hhidden : arr = .rom0 ∧ off ≤ 0x00FF
  · obtain ⟨rfl, hoff⟩ := hhidden
    exact Memory.read_withHiddenOf_hidden m m' hoff
  · rw [Memory.read_withHiddenOf_visible m m' hhidden, h arr off hhidden]

/-- A write to a visible byte commutes with replacing the hidden ones. -/
theorem Memory.write_withHiddenOf (m src : Memory) {arr : Backing} {off : Nat} (v : Byte)
    (h : ¬(arr = .rom0 ∧ off ≤ 0x00FF)) :
    (m.withHiddenOf src).write arr off v = (m.write arr off v).withHiddenOf src := by
  cases arr with
  | rom0 =>
    have hoff : 0x00FF < off := Nat.lt_of_not_le fun hoff => h ⟨rfl, hoff⟩
    simp only [Memory.write, Memory.withHiddenOf, Memory.cells_withCells, if_true, setCell_spliceHidden hoff]
    rfl
  | _ => rfl

/-- R52: in boot mode no address is routed to a hidden byte. -/
theorem route_visible {x : Word} {arr : Backing} {off : Nat} (h : route x true = some (arr, off)) :
    ¬(arr = .rom0 ∧ off ≤ 0x00FF) := by
  rintro ⟨rfl, hoff⟩
  have hroute := route_eq_some h
  simp only [reduceCtorEq, false_and, and_false, false_or, or_false, true_and] at hroute
  omega

/-! ### Every operation of a step with the hidden bytes replaced -/

/-- `s` with the hidden bytes of its memory taken from `src`. -/
def State.withHiddenOf (s : State) (src : Memory) : State :=
  s.setMem (s.mem.withHiddenOf src)

section
variable (s : State) (src : Memory)

@[simp] theorem State.withHiddenOf_a : (s.withHiddenOf src).a = s.a := rfl
@[simp] theorem State.withHiddenOf_flags : (s.withHiddenOf src).flags = s.flags := rfl
@[simp] theorem State.withHiddenOf_pc : (s.withHiddenOf src).pc = s.pc := rfl
@[simp] theorem State.withHiddenOf_sp : (s.withHiddenOf src).sp = s.sp := rfl
@[simp] theorem State.withHiddenOf_halted : (s.withHiddenOf src).halted = s.halted := rfl
@[simp] theorem State.withHiddenOf_bootActive : (s.withHiddenOf src).bootActive = s.bootActive := rfl
@[simp] theorem State.withHiddenOf_mem : (s.withHiddenOf src).mem = s.mem.withHiddenOf src := rfl
@[simp] theorem State.withHiddenOf_params : (s.withHiddenOf src).params = s.params := rfl

@[simp] theorem readReg_withHiddenOf (r : Reg8) : readReg (s.withHiddenOf src) r = readReg s r := readReg_setMem ..

@[simp] theorem readPair_withHiddenOf (p : Pair) : readPair (s.withHiddenOf src) p = readPair s p := readPair_setMem ..

@[simp] theorem State.setPc_withHiddenOf (v : Word) :
    (s.withHiddenOf src).setPc v = (s.setPc v).withHiddenOf src := rfl
@[simp] theorem State.setSp_withHiddenOf (v : Word) :
    (s.withHiddenOf src).setSp v = (s.setSp v).withHiddenOf src := rfl
@[simp] theorem State.setFlags_withHiddenOf (v : Flags) :
    (s.withHiddenOf src).setFlags v = (s.setFlags v).withHiddenOf src := rfl
@[simp] theorem State.setHalted_withHiddenOf (v : Bool) :
    (s.withHiddenOf src).setHalted v = (s.setHalted v).withHiddenOf src := rfl
@[simp] theorem State.setMem_withHiddenOf (m : Memory) :
    (s.withHiddenOf src).setMem (m.withHiddenOf src) = (s.setMem m).withHiddenOf src := rfl
@[simp] theorem State.setReg_withHiddenOf (r : Reg8) (v : Byte) :
    (s.withHiddenOf src).setReg r v = (s.setReg r v).withHiddenOf src := by cases r <;> rfl
@[simp] theorem State.setPair_withHiddenOf (p : Pair) (v : Word) :
    (s.withHiddenOf src).setPair p v = (s.setPair p v).withHiddenOf src := by cases p <;> rfl
@[simp] theorem State.setDst16_withHiddenOf (d : Dst16) (v : Word) :
    (s.withHiddenOf src).setDst16 d v = (s.setDst16 d v).withHiddenOf src := by cases d <;> rfl

end

/-- An outcome with its next state replaced. -/
def mapNext (k : State → State) : Outcome → Outcome
  | .next t => .next (k t)
  | .fault f => .fault f
  | .refused r => .refused r

@[simp] theorem mapNext_next (k : State → State) (t : State) : mapNext k (.next t) = .next (k t) := rfl

@[simp] theorem map_ok {α β : Type} (k : α → β) (x : α) : (k <$> (Except.ok x : Except Fault α)) = .ok (k x) := rfl

@[simp] theorem map_error {α β : Type} (k : α → β) (f : Fault) : (k <$> (Except.error f : Except Fault α)) = .error f :=
  rfl

theorem commit_map (k : State → State) (x : Except Fault State) : commit (k <$> x) = mapNext k (commit x) := by
  cases x <;> rfl

/-- Two continuations of an access need agree only on what the access answers. -/
theorem bind_congr_of_ok {α β : Type} {x : Except Fault α} {f g : α → Except Fault β}
    (h : ∀ a, x = .ok a → f a = g a) : (x >>= f) = (x >>= g) := by
  cases x with
  | error e => rfl
  | ok a => exact h a rfl

section
variable {s : State} (hboot : s.bootActive = true) (src : Memory)
include hboot

theorem memRead_withHiddenOf (x : Word) : memRead (s.withHiddenOf src) x = memRead s x := by
  cases hroute : route x true with
  | none => simp [memRead, hboot, hroute]
  | some p =>
    obtain ⟨arr, off⟩ := p
    have hread := s.mem.read_withHiddenOf_visible src (route_visible hroute)
    simpa [memRead, hboot, hroute] using hread

theorem memWrite_withHiddenOf (x : Word) (v : Byte) :
    memWrite (s.withHiddenOf src) x v = (·.withHiddenOf src) <$> memWrite s x v := by
  cases hroute : route x true with
  | none => simp [memWrite, hboot, hroute]
  | some p =>
    obtain ⟨arr, off⟩ := p
    have hwrite := s.mem.write_withHiddenOf src v (route_visible hroute)
    simp [memWrite, hboot, hroute, hwrite]

theorem read8_withHiddenOf (o : Src8) : read8 (s.withHiddenOf src) o = read8 s o := by
  cases o <;> simp [read8, memRead_withHiddenOf hboot]

theorem write8_withHiddenOf (d : Dst8) (v : Byte) :
    write8 (s.withHiddenOf src) d v = (·.withHiddenOf src) <$> write8 s d v := by
  cases d with
  | reg r => simp [write8]
  | indHL => simp [write8, memWrite_withHiddenOf hboot]

theorem imm16_withHiddenOf : imm16 (s.withHiddenOf src) = imm16 s := by
  simp [imm16, memRead16, memRead_withHiddenOf hboot]

theorem push_withHiddenOf (v : Word) : push (s.withHiddenOf src) v = (·.withHiddenOf src) <$> push s v := by
  simp only [push, memWrite_withHiddenOf hboot, bind_map_left, map_bind]
  refine bind_congr_of_ok fun s1 h1 => ?_
  have hboot1 : s1.bootActive = true := by
    rw [(memWrite_frame h1).1]
    exact hboot
  simp [memWrite_withHiddenOf hboot1]

theorem pop_withHiddenOf :
    pop (s.withHiddenOf src) = (fun p => (p.1, p.2.withHiddenOf src)) <$> pop s := by
  simp [pop, memRead_withHiddenOf hboot]

theorem fetch_withHiddenOf : fetch (s.withHiddenOf src) = fetch s := by
  simp [fetch, memRead_withHiddenOf hboot]

theorem arithmetic_withHiddenOf (core : Byte → Byte → Byte × Flags) (o : Src8) :
    arithmetic core o (s.withHiddenOf src) = mapNext (·.withHiddenOf src) (arithmetic core o s) := by
  simp [arithmetic, read8_withHiddenOf hboot, ← commit_map]

theorem loadByte_withHiddenOf (d : Dst8) (o : Src8) :
    loadByte d o (s.withHiddenOf src) = mapNext (·.withHiddenOf src) (loadByte d o s) := by
  simp [loadByte, read8_withHiddenOf hboot, write8_withHiddenOf hboot, ← commit_map]

theorem loadWord_withHiddenOf (d : Dst16) :
    loadWord d (s.withHiddenOf src) = mapNext (·.withHiddenOf src) (loadWord d s) := by
  simp [loadWord, imm16_withHiddenOf hboot, ← commit_map]

theorem pushPair_withHiddenOf (p : Pair) :
    pushPair p (s.withHiddenOf src) = mapNext (·.withHiddenOf src) (pushPair p s) := by
  simp [pushPair, push_withHiddenOf hboot, ← commit_map]

theorem popPair_withHiddenOf (p : Pair) :
    popPair p (s.withHiddenOf src) = mapNext (·.withHiddenOf src) (popPair p s) := by
  simp [popPair, pop_withHiddenOf hboot, ← commit_map]

theorem jump_withHiddenOf (cc : Cond) :
    jump cc (s.withHiddenOf src) = mapNext (·.withHiddenOf src) (jump cc s) := by
  cases h : holds s.flags cc <;> simp [jump, h, imm16_withHiddenOf hboot, ← commit_map]

theorem callSub_withHiddenOf (cc : Cond) :
    callSub cc (s.withHiddenOf src) = mapNext (·.withHiddenOf src) (callSub cc s) := by
  cases h : holds s.flags cc with
  | false => simp [callSub, h]
  | true =>
    simp only [callSub, State.withHiddenOf_flags, State.withHiddenOf_pc, h, if_true, push_withHiddenOf hboot,
      ← commit_map, bind_map_left, map_bind]
    congr 1
    refine bind_congr_of_ok fun t ht => ?_
    have hboot' : t.bootActive = true := by
      rw [(push_frame ht).1]
      exact hboot
    simp [imm16_withHiddenOf hboot']

theorem returnSub_withHiddenOf (cc : Cond) :
    returnSub cc (s.withHiddenOf src) = mapNext (·.withHiddenOf src) (returnSub cc s) := by
  cases h : holds s.flags cc <;> simp [returnSub, h, pop_withHiddenOf hboot, ← commit_map]

theorem swapNibblesOf_withHiddenOf (d : Dst8) :
    swapNibblesOf d (s.withHiddenOf src) = mapNext (·.withHiddenOf src) (swapNibblesOf d s) := by
  simp [swapNibblesOf, read8_withHiddenOf hboot, write8_withHiddenOf hboot, ← commit_map]

/-- Replacing the hidden bytes commutes with every variant's meaning (R204). -/
theorem exec_withHiddenOf (i : Instr) :
    exec i (s.withHiddenOf src) = mapNext (·.withHiddenOf src) (exec i s) := by
  rw [exec_eq_execForm, exec_eq_execForm]
  cases i.form with
  | alu op o =>
    cases op <;> simp only [execForm, addA, adcA, subA, sbcA, State.withHiddenOf_params, State.withHiddenOf_flags,
      arithmetic_withHiddenOf hboot]
  | ld8 d o => exact loadByte_withHiddenOf hboot src d o
  | ld16 d => exact loadWord_withHiddenOf hboot src d
  | push p => exact pushPair_withHiddenOf hboot src p
  | pop p => exact popPair_withHiddenOf hboot src p
  | jp cc => exact jump_withHiddenOf hboot src cc
  | call cc => exact callSub_withHiddenOf hboot src cc
  | ret cc => exact returnSub_withHiddenOf hboot src cc
  | swap d => exact swapNibblesOf_withHiddenOf hboot src d
  | halt | nop => rfl

/-- In boot mode, replacing the hidden bytes and taking a step commute. -/
theorem step_withHiddenOf : step (s.withHiddenOf src) = mapNext (·.withHiddenOf src) (step s) := by
  unfold step
  rw [State.withHiddenOf_halted, fetch_withHiddenOf hboot]
  cases s.halted with
  | true => rfl
  | false =>
    cases fetch s with
    | error f => rfl
    | ok i => exact exec_withHiddenOf hboot src i

end

theorem sameButHidden_withHiddenOf (s : State) (src : Memory) : sameButHidden s (s.withHiddenOf src) :=
  ⟨rfl, fun _ _ h => (s.mem.read_withHiddenOf_visible src h).symm⟩

/-- Two canonical states that differ only in the hidden bytes are one state with the hidden bytes of two memories. -/
theorem withHiddenOf_eq_of_sameButHidden {s s' : State} (hs : MemoryCanonical s) (hs' : MemoryCanonical s')
    (h : sameButHidden s s') : s.withHiddenOf s'.mem = s' := by
  obtain ⟨heq, hagree⟩ := h
  rw [State.withHiddenOf, Memory.withHiddenOf_eq hs hs' hagree]
  exact heq.symm

theorem step_ne_refused (s : State) (r : Refusal) : step s ≠ .refused r := by
  unfold step
  split
  · simp
  · split
    · simp
    · exact exec_ne_refused _ s r

/-- Settles O59. The first half is `step_withHiddenOf` for the hidden bytes of the other state, the second half for the
state's own. -/
theorem hiddenRomCannotBeObserved : Obligations.HiddenRomCannotBeObserved := by
  intro s s' hboot hs hs' hsame
  constructor
  · have hstep := step_withHiddenOf hboot s'.mem
    rw [withHiddenOf_eq_of_sameButHidden hs hs' hsame] at hstep
    rw [hstep]
    cases h : step s with
    | next t => exact sameButHidden_withHiddenOf t s'.mem
    | fault f => exact rfl
    | refused r => exact absurd h (step_ne_refused s r)
  · intro t off h hoff
    have hstep := step_withHiddenOf hboot s.mem
    rw [withHiddenOf_eq_of_sameButHidden hs hs ⟨rfl, fun _ _ _ => rfl⟩, h] at hstep
    have ht : t = t.withHiddenOf s.mem := Host.Outcome.next.inj hstep
    rw [ht]
    exact t.mem.read_withHiddenOf_hidden s.mem hoff

end Sys2Proof.Machine
end

section
/-! PROOF. The family 30_encoding.md: the decoder against the encoder, which are written from different tables (R80 to
R85 against R91 and R93), the unmapped bytes (R92, R93, R221), and the length of an instruction (R80, R90, R205). -/

namespace Sys2Proof.Machine

open Sys2Proof.Safety

/-! ### What the list decoder accepts -/

theorem lookUp_eq_ok {b : Byte} {page : Page} {bs rest : List Byte} {i : Instr} :
    lookUp b page bs = .ok (i, rest) ↔ decodeByte b (page == .prefixed) = some i ∧ bs = rest := by
  unfold lookUp
  cases decodeByte b (page == .prefixed) <;> simp

/-- R89: a list is accepted for its first byte, or for the byte after an escape, and what stands after that byte is left
over. -/
theorem decode_eq_ok {bs rest : List Byte} {i : Instr} :
    decode bs = .ok (i, rest) ↔
      (∃ b, bs = b :: rest ∧ b ≠ prefixEscape ∧ decodeByte b false = some i) ∨
        ∃ b, bs = prefixEscape :: b :: rest ∧ decodeByte b true = some i := by
  have hplain : (Page.plain == .prefixed) = false := rfl
  cases bs with
  | nil => simp [decode]
  | cons b0 tail =>
    by_cases hesc : b0 = prefixEscape
    · cases tail with
      | nil => simp [decode, hesc]
      | cons b1 tail => simp [decode, hesc, lookUp_eq_ok, and_comm]
    · simp [decode, hesc, lookUp_eq_ok, hplain, and_comm]

/-- Bytes after an accepted list are left over with the rest of it. -/
theorem decode_append {bs rest : List Byte} {i : Instr} (h : decode bs = .ok (i, rest)) (more : List Byte) :
    decode (bs ++ more) = .ok (i, rest ++ more) := by
  rcases decode_eq_ok.1 h with ⟨b, rfl, hb, hdec⟩ | ⟨b, rfl, hdec⟩
  · exact decode_eq_ok.2 (.inl ⟨b, rfl, hb, hdec⟩)
  · exact decode_eq_ok.2 (.inr ⟨b, rfl, hdec⟩)

/-! ### The decoder's fields against the encoder's maps -/

/-- Every row of R91 and R93 decodes to its own instruction. -/
theorem decode_encode (i : Instr) : decode (encode i) = .ok (i, []) := by
  cases i <;> rfl

/-- Settles O5: the 144 rows decode to their instructions (`decode_encode`), whatever follows them (`decode_append`). -/
theorem decodeOfEncodeIsIdentity : Obligations.DecodeOfEncodeIsIdentity :=
  fun i operands _ => decode_append (decode_encode i) operands

/-- A byte that the fields of R81 to R85 map on the plain page stands in R91 for that instruction alone. -/
theorem encode_of_decodeByte_plain {b : Byte} {i : Instr} (h : decodeByte b false = some i) : encode i = [b] := by
  have hmap : ∀ b : Byte, ∀ i ∈ decodeByte b false, encode i = [b] := by decide
  exact hmap b i h

/-- A byte that is mapped on the prefixed page stands in R93 for that instruction alone. -/
theorem encode_of_decodeByte_prefixed {b : Byte} {i : Instr} (h : decodeByte b true = some i) :
    encode i = [prefixEscape, b] := by
  have hmap : ∀ b : Byte, ∀ i ∈ decodeByte b true, encode i = [prefixEscape, b] := by decide
  exact hmap b i h

/-- Settles O6, by the page the operation byte was looked up in. -/
theorem acceptedBytesAreTheEncoding : Obligations.AcceptedBytesAreTheEncoding := by
  intro bs i rest h
  rcases decode_eq_ok.1 h with ⟨b, rfl, -, hdec⟩ | ⟨b, rfl, hdec⟩
  · rw [encode_of_decodeByte_plain hdec, List.singleton_append]
  · rw [encode_of_decodeByte_prefixed hdec, List.cons_append, List.singleton_append]

/-- Settles O9. -/
theorem sampleWordsDecode : Obligations.SampleWordsDecode :=
  ⟨rfl, rfl, rfl, rfl, rfl, rfl, rfl, rfl, rfl, rfl, rfl, rfl, rfl, rfl, rfl, rfl, rfl⟩

/-! ### The opcode bytes of a form -/

/-- The register field of R82, with 110 for `(HL)`. -/
def dst8Code : Dst8 → Byte
  | .reg r => regCode r
  | .indHL => 6

/-- The operation field `ooo` of R85. -/
def aluCode : AluOp → Byte
  | .add => 0
  | .adc => 1
  | .sub => 2
  | .sbc => 3

/-- The opcode of a branch: its own byte when unconditional, else the condition field of R84 in its place. -/
def condOpcode (base always : Byte) : Cond → Byte
  | .NZ => base
  | .Z => base + 8 * 1
  | .NC => base + 8 * 2
  | .C => base + 8 * 3
  | .always => always

/-- The opcode bytes of each variant of R35, its operand fields put in their places (R81 to R85). -/
def formOpcode : Form → List Byte
  | .nop => [0x00]
  | .halt => [0x76]
  | .ld16 d => [0x01 + 16 * dst16Code d]
  | .ld8 d .imm8 => [0x06 + 8 * dst8Code d]
  | .ld8 d .indHL => [0x46 + 8 * dst8Code d]
  | .ld8 d (.reg r) => [0x40 + 8 * dst8Code d + regCode r]
  | .alu op .imm8 => [0xC6 + 8 * aluCode op]
  | .alu op .indHL => [0x86 + 8 * aluCode op]
  | .alu op (.reg r) => [0x80 + 8 * aluCode op + regCode r]
  | .push p => [0xC5 + 16 * pairCode p]
  | .pop p => [0xC1 + 16 * pairCode p]
  | .jp cc => [condOpcode 0xC2 0xC3 cc]
  | .call cc => [condOpcode 0xC4 0xCD cc]
  | .ret cc => [condOpcode 0xC0 0xC9 cc]
  | .swap d => [0xCB, 0x30 + dst8Code d]

/-- The maps of R91 and R93 are the fields of R81 to R85 put together. -/
theorem encode_eq_formOpcode (i : Instr) : encode i = formOpcode i.form := by
  cases i <;> rfl

theorem encode_of_form {i : Instr} {f : Form} (h : i.form = f) : encode i = formOpcode f := by
  rw [encode_eq_formOpcode, h]

/-- Settles O7: the clauses about forms are rows of `formOpcode`, the others rows of R91 and R93. -/
theorem opcodesOfTheForms : Obligations.OpcodesOfTheForms := by
  intro i
  refine ⟨fun _ => encode_of_form, fun _ => encode_of_form, fun _ => encode_of_form, fun _ => encode_of_form,
    fun _ _ => encode_of_form, fun _ => encode_of_form, fun _ => encode_of_form, fun _ => encode_of_form,
    fun _ => encode_of_form, fun _ => encode_of_form, fun _ => encode_of_form, fun _ => encode_of_form, ?_⟩
  decide

/-! ### The length of an instruction -/

/-- R80, R90: the opcode bytes and the operand bytes make up the length. -/
theorem length_formOpcode_add (f : Form) : (formOpcode f).length + formOperandBytes f = formLength f := by
  cases f with
  | alu _ src => cases src <;> rfl
  | ld8 _ src => cases src <;> rfl
  | _ => rfl

theorem length_eq_encode_length_add (i : Instr) : i.length = (encode i).length + i.operandBytes := by
  rw [encode_eq_formOpcode]
  exact (length_formOpcode_add i.form).symm

/-- The advance for a read operand is the length of the forms that read it (R87, R90). -/
theorem srcAdvance_eq_alu_length (op : AluOp) (src : Src8) :
    srcAdvance src = BitVec.ofNat 16 (formLength (.alu op src)) := by
  cases src <;> rfl

theorem srcAdvance_eq_ld8_length (d : Dst8) (src : Src8) :
    srcAdvance src = BitVec.ofNat 16 (formLength (.ld8 d src)) := by
  cases src <;> rfl

/-- R205: every variant that is no branch advances `pc` by its length. -/
theorem ExecEffect.pc_eq {s t : State} {f : Form} (h : ExecEffect s f t) (hf : isBranch f = false) :
    t.pc = s.pc + BitVec.ofNat 16 (formLength f) := by
  cases h with
  | jump | callTaken | callNotTaken | retTaken | retNotTaken => cases hf
  | alu op src => rw [State.setPc_pc, srcAdvance_eq_alu_length]
  | loadReg _ src | store src => rw [State.setPc_pc, srcAdvance_eq_ld8_length]
  | _ => rfl

/-- Settles O53, by the effect of each variant and the bytes of its encoding. -/
theorem successorPcIsPcPlusLength : Obligations.SuccessorPcIsPcPlusLength :=
  fun i _ _ h hf => ⟨(execEffect_of_exec h).pc_eq hf, length_eq_encode_length_add i⟩

/-! ### Unmapped bytes -/

/-- The bytes the decoder maps to nothing on the plain page, in ascending order, the escape apart. -/
def plainUnmapped : List Byte :=
  ((List.range 256).map (BitVec.ofNat 8)).filter fun b => decodeByte b false = none ∧ b ≠ prefixEscape

theorem mem_plainUnmapped {b : Byte} : b ∈ plainUnmapped ↔ decodeByte b false = none ∧ b ≠ prefixEscape := by
  have hall : b ∈ (List.range 256).map (BitVec.ofNat 8) :=
    List.mem_map.2 ⟨b.toNat, List.mem_range.2 b.isLt, by simp⟩
  simp only [plainUnmapped, List.mem_filter, hall, true_and, decide_eq_true_eq]

theorem decodeByte_plain_eq_none_iff (b : Byte) :
    decodeByte b false = none ↔ b ∈ plainUnmapped ∨ b = prefixEscape := by
  by_cases h : b = prefixEscape
  · subst h
    exact iff_of_true rfl (.inr rfl)
  · simp [mem_plainUnmapped, h]

/-- R93: of the prefixed page exactly the bytes with the top five bits 00110 are mapped. -/
theorem decodeByte_prefixed_eq_none_iff (b : Byte) : decodeByte b true = none ↔ ¬(0x30 ≤ b ∧ b ≤ 0x37) := by
  revert b; decide

/-- R221: a running machine that fetches a byte with no plain mapping raises `UnimplementedOpcode`. -/
theorem step_unmapped_plain {s : State} {b : Byte} (hh : s.halted = false) (hb : memRead s s.pc = .ok b)
    (hne : b ≠ prefixEscape) (hdec : decodeByte b false = none) : step s = .fault (.unimplementedOpcode b .plain) :=
  step_of_fetch_error hh ((fetch_plain hb hne).trans (decodeOrRaise_none hdec))

/-- R221: likewise for a byte with no mapping after the escape. -/
theorem step_unmapped_prefixed {s : State} {b : Byte} (hh : s.halted = false)
    (hesc : memRead s s.pc = .ok prefixEscape) (hb : memRead s (s.pc + 1) = .ok b) (hdec : decodeByte b true = none) :
    step s = .fault (.unimplementedOpcode b .prefixed) :=
  step_of_fetch_error hh ((fetch_prefixed hesc hb).trans (decodeOrRaise_none hdec))

/-- Settles O8: the list of R92 is the decoder's own list, and a step answers what its fetch finds. -/
theorem unmappedBytesAreRejected : Obligations.UnmappedBytesAreRejected := by
  unfold Obligations.UnmappedBytesAreRejected
  intro unmapped
  have hlist : unmapped = plainUnmapped := by
    unfold unmapped
    decide
  refine ⟨rfl, ?_, decodeByte_prefixed_eq_none_iff, ?_, ?_⟩
  · rw [hlist]
    exact decodeByte_plain_eq_none_iff
  · intro s b hh hb hmem
    obtain ⟨hdec, hne⟩ := mem_plainUnmapped.1 (hlist ▸ hmem)
    exact step_unmapped_plain hh hb hne hdec
  · intro s b hh he hb hout
    exact step_unmapped_prefixed hh he hb ((decodeByte_prefixed_eq_none_iff b).2 hout)

end Sys2Proof.Machine
end

section
/-! PROOF. The family 40_arithmetic.md: the cores and the carry fold of R101 to R103 in the terms of the claims, where the
carries and the fold lose a bit (R116, R117), and the nine forms of each operation (R104 to R115). -/

namespace Sys2Proof.Machine

open Sys2Proof.Safety

/-! ### The cores -/

theorem addCore_zero (mode : HcMode) (a v : Byte) : (addCore mode a v).2.z = true ↔ a + v = 0 := by
  rw [← addCore_result mode a v]
  exact decide_eq_true_iff

theorem subCore_zero (mode : HcMode) (a v : Byte) : (subCore mode a v).2.z = true ↔ a - v = 0 := by
  rw [← subCore_result mode a v]
  exact decide_eq_true_iff

/-- R101: the state of the claims is the one the sum core gives. -/
theorem afterAdd_eq_addCore (s : State) (v : Byte) (len : Word) :
    afterAdd s v len =
      ((s.setReg .A (addCore s.params.hcMode s.a v).1).setFlags (addCore s.params.hcMode s.a v).2).setPc
        (s.pc + len) := by
  simp only [afterAdd, ← addCore_result s.params.hcMode s.a v]
  cases s.params.hcMode <;> rfl

/-- R102: the state of the claims is the one the difference core gives. -/
theorem afterSub_eq_subCore (s : State) (v : Byte) (len : Word) :
    afterSub s v len =
      ((s.setReg .A (subCore s.params.hcMode s.a v).1).setFlags (subCore s.params.hcMode s.a v).2).setPc
        (s.pc + len) := by
  simp only [afterSub, ← subCore_result s.params.hcMode s.a v]
  cases s.params.hcMode <;> rfl

theorem toNat_and_low_nibble (v : Byte) : (v &&& 0x0F).toNat = v.toNat % 16 :=
  Nat.and_two_pow_sub_one_eq_mod v.toNat 4

/-- Settles O30: each flag's sum or difference is read against the wrapped result. -/
theorem carriesRecordTheLostBit : Obligations.CarriesRecordTheLostBit := by
  intro mode a v
  rw [addCore_carry, subCore_borrow, addCore_half, subCore_half]
  simp only [addCore_result, subCore_result, BitVec.lt_def, toNat_and_low_nibble, BitVec.toNat_add, BitVec.toNat_sub]
  refine ⟨?_, ?_, ?_, ?_⟩ <;> omega

/-! ### The carry fold -/

theorem carryFold_le_one (mode : CarryFold) (c : Bool) : carryFold mode c ≤ 1 := by
  cases mode <;> cases c <;> decide

/-- R103: the fold adds one under one value of the carry flag and nothing under the other. -/
theorem foldOperand_eq_folded (s : State) (v : Byte) : foldOperand s.params.carryFold s.flags.c v = folded s v := by
  have hfold : ∀ k, BitVec.ofNat 8 ((v.toNat + k) % 256) = v + BitVec.ofNat 8 k := fun k => by
    apply BitVec.eq_of_toNat_eq
    simp [BitVec.toNat_add]
  rw [foldOperand, hfold, folded]
  cases s.params.carryFold <;> cases s.flags.c <;> simp [carryFold]

/-- R117: below 0x100 the fold is exact. -/
theorem toNat_foldOperand {mode : CarryFold} {c : Bool} {v : Byte} (h : ¬(v = 0xFF ∧ carryFold mode c = 1)) :
    (foldOperand mode c v).toNat = v.toNat + carryFold mode c := by
  have hfold := carryFold_le_one mode c
  have hlt : v.toNat + carryFold mode c < 256 := by bv_omega
  rw [foldOperand, Nat.mod_eq_of_lt hlt, BitVec.toNat_ofNat, Nat.mod_eq_of_lt hlt]

/-- R117, D6: the one operand that wraps. -/
theorem foldOperand_wraps {mode : CarryFold} {c : Bool} (h : carryFold mode c = 1) : foldOperand mode c 0xFF = 0#8 := by
  rw [foldOperand, h]
  rfl

/-- Settles O29: the operand that wraps is 0x00, and adding or subtracting it neither moves `A` nor carries. -/
theorem foldedOperandWrapsWithoutCarry : Obligations.FoldedOperandWrapsWithoutCarry := by
  intro hc mode c a v
  refine ⟨toNat_foldOperand, ?_⟩
  rintro rfl hfold
  rw [foldOperand_wraps hfold, hfold]
  refine ⟨?_, ?_, ?_, ?_, ?_, ?_, ?_, ?_, ?_⟩
  · rw [addCore_result, BitVec.add_zero]
  · rw [subCore_result, BitVec.sub_zero]
  · rw [addCore_zero, BitVec.add_zero]
  · rw [subCore_zero, BitVec.sub_zero]
  · rw [Bool.eq_false_iff, Ne, addCore_carry]
    bv_omega
  · rw [Bool.eq_false_iff, Ne, subCore_borrow]
    exact Nat.not_lt_zero _
  · rw [Bool.eq_false_iff, Ne, addCore_half]
    bv_omega
  · rw [Bool.eq_false_iff, Ne, subCore_half]
    exact Nat.not_lt_zero _
  · bv_omega

/-! ### The instructions -/

/-- What each operation leaves for an operand `v`: the sum or the difference (R101, R102), of the folded operand for ADC
and SBC (R103). -/
def afterAlu (op : AluOp) (s : State) (v : Byte) (len : Word) : State :=
  match op with
  | .add => afterAdd s v len
  | .adc => afterAdd s (folded s v) len
  | .sub => afterSub s v len
  | .sbc => afterSub s (folded s v) len

/-- The core of each operation in a state, on the old `A` and the operand (R101 to R103). -/
def aluCore (op : AluOp) (s : State) (a v : Byte) : Byte × Flags :=
  match op with
  | .add => addCore s.params.hcMode a v
  | .adc => addCore s.params.hcMode a (foldOperand s.params.carryFold s.flags.c v)
  | .sub => subCore s.params.hcMode a v
  | .sbc => subCore s.params.hcMode a (foldOperand s.params.carryFold s.flags.c v)

/-- R100: the arithmetic instructions differ in their core alone. -/
theorem exec_eq_arithmetic {i : Instr} {op : AluOp} {src : Src8} (hi : i.form = .alu op src) (s : State) :
    exec i s = arithmetic (aluCore op s) src s := by
  rw [exec_eq_execForm, hi]
  cases op <;> rfl

theorem afterAlu_eq_aluCore (op : AluOp) (s : State) (v : Byte) (len : Word) :
    afterAlu op s v len =
      ((s.setReg .A (aluCore op s s.a v).1).setFlags (aluCore op s s.a v).2).setPc (s.pc + len) := by
  cases op with
  | add => exact afterAdd_eq_addCore ..
  | adc => rw [afterAlu, ← foldOperand_eq_folded]; exact afterAdd_eq_addCore ..
  | sub => exact afterSub_eq_subCore ..
  | sbc => rw [afterAlu, ← foldOperand_eq_folded]; exact afterSub_eq_subCore ..

/-- R100: the outcome of an arithmetic instruction whose operand is read. -/
theorem exec_alu_of_read {i : Instr} {op : AluOp} {src : Src8} {s : State} {v : Byte} (hi : i.form = .alu op src)
    (h : read8 s src = .ok v) : exec i s = .next (afterAlu op s v (srcAdvance src)) := by
  rw [exec_eq_arithmetic hi, afterAlu_eq_aluCore]
  exact arithmetic_eq_next.2 ⟨v, h, rfl⟩

/-- R100, R223: an operand that cannot be read fails the instruction. -/
theorem exec_alu_of_read_error {i : Instr} {op : AluOp} {src : Src8} {s : State} {f : Fault}
    (hi : i.form = .alu op src) (h : read8 s src = .error f) : exec i s = .fault f := by
  rw [exec_eq_arithmetic hi, arithmetic, h, error_bind, commit_error]

/-- R104 to R115: the register forms, the `(HL)` form and the immediate form of one operation. -/
theorem exec_alu_outcomes {op : AluOp} {iHL iD8 : Instr} (hHL : iHL.form = .alu op .indHL)
    (hD8 : iD8.form = .alu op .imm8) (s : State) :
    (∀ i r, i.form = .alu op (.reg r) → exec i s = .next (afterAlu op s (readReg s r) 1)) ∧
    ((∀ v, memRead s (readPair s .HL) = .ok v → exec iHL s = .next (afterAlu op s v 1)) ∧
      (mapped s (readPair s .HL) = false → exec iHL s = .fault (.addressOutOfRange (readPair s .HL)))) ∧
    ((∀ v, memRead s (s.pc + 1) = .ok v → exec iD8 s = .next (afterAlu op s v 2)) ∧
      (mapped s (s.pc + 1) = false → exec iD8 s = .fault (.addressOutOfRange (s.pc + 1)))) := by
  refine ⟨fun i r hi => ?_, ⟨fun v hv => ?_, fun hx => ?_⟩, fun v hv => ?_, fun hx => ?_⟩
  · exact exec_alu_of_read hi rfl
  · exact exec_alu_of_read hHL hv
  · exact exec_alu_of_read_error hHL (memRead_of_unmapped hx)
  · exact exec_alu_of_read hD8 hv
  · exact exec_alu_of_read_error hD8 (memRead_of_unmapped hx)

/-- Settles O25: the ADD rows of `exec_alu_outcomes`. -/
theorem addResult : Obligations.AddResult :=
  exec_alu_outcomes (op := .add) rfl rfl

/-- Settles O26: the ADC rows of `exec_alu_outcomes`, with the folded operand. -/
theorem adcResult : Obligations.AdcResult :=
  exec_alu_outcomes (op := .adc) rfl rfl

/-- Settles O27: the SUB rows of `exec_alu_outcomes`. -/
theorem subResult : Obligations.SubResult :=
  exec_alu_outcomes (op := .sub) rfl rfl

/-- Settles O28: the SBC rows of `exec_alu_outcomes`, with the folded operand. -/
theorem sbcResult : Obligations.SbcResult :=
  exec_alu_outcomes (op := .sbc) rfl rfl

end Sys2Proof.Machine
end

section
/-! PROOF. The family 41_load.md: an 8-bit load by what its source reads and its destination takes (R129 to R134), a
16-bit immediate load by its two bytes (R135, R136). -/

namespace Sys2Proof.Machine

open Sys2Proof.Safety

/-! ### 8-bit loads -/

section
variable {i : Instr} {d : Dst8} {src : Src8} {s : State} {v : Byte} {f : Fault}

theorem exec_eq_loadByte (hi : i.form = .ld8 d src) (s : State) : exec i s = loadByte d src s := by
  rw [exec_eq_execForm, hi]
  rfl

/-- R129, R131: a register destination takes the byte read, whatever register the address of the read came from. -/
theorem exec_load_reg_of_read {r : Reg8} (hi : i.form = .ld8 (.reg r) src) (hv : read8 s src = .ok v) :
    exec i s = .next ((s.setReg r v).setPc (s.pc + srcAdvance src)) := by
  rw [exec_eq_loadByte hi]
  exact loadByte_eq_next.2 ⟨v, _, hv, rfl, rfl⟩

/-- R129: the source is read first, so its error comes first. -/
theorem exec_load_of_read_error (hi : i.form = .ld8 d src) (hv : read8 s src = .error f) :
    exec i s = .fault f := by
  rw [exec_eq_loadByte hi, loadByte, hv, error_bind, commit_error]

/-- R132, R134: a store of the byte read changes the byte at HL and no other. -/
theorem exec_store_of_mapped (hi : i.form = .ld8 .indHL src) (hv : read8 s src = .ok v) (hs : MemoryCanonical s)
    (hHL : mapped s (readPair s .HL) = true) :
    ∃ m, exec i s = .next ((s.setMem m).setPc (s.pc + srcAdvance src)) ∧ storesOnly s m [(readPair s .HL, v)] := by
  obtain ⟨m, hwrite, hstores, -⟩ := (writeIsReadBackAndNothingElseChanges s (readPair s .HL) v).1 hs hHL
  rw [exec_eq_loadByte hi]
  exact ⟨m, loadByte_eq_next.2 ⟨v, _, hv, hwrite, rfl⟩, hstores⟩

/-- R132, R134: a store to an unmapped HL fails there once its source is read. -/
theorem exec_store_of_unmapped (hi : i.form = .ld8 .indHL src) (hv : read8 s src = .ok v)
    (hHL : mapped s (readPair s .HL) = false) : exec i s = .fault (.addressOutOfRange (readPair s .HL)) := by
  rw [exec_eq_loadByte hi, loadByte, hv, ok_bind, write8, memWrite_of_unmapped v hHL, error_bind, commit_error]

end

theorem setReg_readReg (s : State) (r : Reg8) : s.setReg r (readReg s r) = s := by
  cases r <;> rfl

/-- Settles O31: the source register is always read, and a register written with its own byte is unchanged. -/
theorem loadRegisterFromRegister : Obligations.LoadRegisterFromRegister := by
  intro i d r s hi
  have hload := exec_load_reg_of_read (s := s) hi rfl
  refine ⟨hload, ?_⟩
  rintro rfl
  rwa [setReg_readReg] at hload

/-- Settles O32, by what the read at HL answers. -/
theorem loadRegisterFromMemory : Obligations.LoadRegisterFromMemory :=
  fun _ _ _ hi => ⟨fun _ hv => exec_load_reg_of_read hi hv,
    fun hHL => exec_load_of_read_error hi (memRead_of_unmapped hHL)⟩

/-- Settles O33: the source register is always read, so the store fails only at HL. -/
theorem storeRegisterToMemory : Obligations.StoreRegisterToMemory :=
  fun _ _ _ hi => ⟨exec_store_of_mapped hi rfl, exec_store_of_unmapped hi rfl⟩

/-- Settles O34, by what the read at `pc + 1` answers. -/
theorem loadRegisterImmediate : Obligations.LoadRegisterImmediate :=
  fun _ _ _ hi => ⟨fun _ hv => exec_load_reg_of_read hi hv,
    fun hpc => exec_load_of_read_error hi (memRead_of_unmapped hpc)⟩

/-- Settles O35, by what the read at `pc + 1` answers and, after it, the write at HL. -/
theorem storeImmediateToMemory : Obligations.StoreImmediateToMemory := by
  intro s
  refine ⟨fun v hs hv hHL => ?_, fun hpc => ?_, fun hpc hHL => ?_⟩
  · exact exec_store_of_mapped (src := .imm8) rfl hv hs hHL
  · exact exec_load_of_read_error (src := .imm8) rfl (memRead_of_unmapped hpc)
  · obtain ⟨v, hv⟩ := memRead_of_mapped hpc
    exact exec_store_of_unmapped (src := .imm8) rfl hv hHL

/-! ### The immediate word -/

theorem pc_add_one_add_one (s : State) : s.pc + 1 + 1 = s.pc + 2 :=
  BitVec.add_assoc ..

/-- R62, R86: the two bytes after the opcode, the low one first. -/
theorem imm16_of_reads {s : State} {lo hi : Byte} (hlo : memRead s (s.pc + 1) = .ok lo)
    (hhi : memRead s (s.pc + 2) = .ok hi) : imm16 s = .ok (joinBytes hi lo) := by
  rw [← pc_add_one_add_one] at hhi
  exact memRead16_eq_ok.2 ⟨lo, hi, hlo, hhi, rfl⟩

theorem imm16_of_low_unmapped {s : State} (h : mapped s (s.pc + 1) = false) :
    imm16 s = .error (.addressOutOfRange (s.pc + 1)) :=
  memRead16_eq_error.2 (.inl (memRead_of_unmapped h))

theorem imm16_of_high_unmapped {s : State} (hlo : mapped s (s.pc + 1) = true) (hhi : mapped s (s.pc + 2) = false) :
    imm16 s = .error (.addressOutOfRange (s.pc + 2)) := by
  rw [← pc_add_one_add_one] at hhi ⊢
  exact memRead16_eq_error.2 (.inr ⟨memRead_of_mapped hlo, memRead_of_unmapped hhi⟩)

/-! ### 16-bit loads -/

section
variable {i : Instr} {dst : Dst16} {s : State}

theorem exec_eq_loadWord (hi : i.form = .ld16 dst) (s : State) : exec i s = loadWord dst s := by
  rw [exec_eq_execForm, hi]
  rfl

theorem exec_load_word_of_imm16 {v : Word} (hi : i.form = .ld16 dst) (hv : imm16 s = .ok v) :
    exec i s = .next ((s.setDst16 dst v).setPc (s.pc + 3)) := by
  rw [exec_eq_loadWord hi]
  exact loadWord_eq_next.2 ⟨v, hv, rfl⟩

theorem exec_load_word_of_imm16_error {f : Fault} (hi : i.form = .ld16 dst) (hv : imm16 s = .error f) :
    exec i s = .fault f := by
  rw [exec_eq_loadWord hi, loadWord, hv, error_bind, commit_error]

end

/-- R24: a pair takes the first-named register from the high byte and the other from the low byte. -/
theorem setPair_joinBytes (s : State) (hi lo : Byte) :
    s.setPair .BC (joinBytes hi lo) = { s with b := hi, c := lo } ∧
    s.setPair .DE (joinBytes hi lo) = { s with d := hi, e := lo } ∧
    s.setPair .HL (joinBytes hi lo) = { s with h := hi, l := lo } := by
  simp only [State.setPair, highByte_joinBytes, lowByte_joinBytes, and_self]

/-- Settles O36, by the immediate word and, for a pair, its two bytes. -/
theorem loadWordImmediate : Obligations.LoadWordImmediate := by
  intro s
  refine ⟨fun lo hi hlo hhi => ?_, fun i dst hi => ⟨fun hlo => ?_, fun hlo hhi => ?_⟩⟩
  · have hload : ∀ i dst, i.form = .ld16 dst →
        exec i s = .next ((s.setDst16 dst (joinBytes hi lo)).setPc (s.pc + 3)) :=
      fun _ _ hform => exec_load_word_of_imm16 hform (imm16_of_reads hlo hhi)
    obtain ⟨hBC, hDE, hHL⟩ := setPair_joinBytes s hi lo
    rw [hload .ld_BC_d16 .BC rfl, hload .ld_DE_d16 .DE rfl, hload .ld_HL_d16 .HL rfl, hload .ld_SP_d16 .SP rfl]
    simp only [State.setDst16, hBC, hDE, hHL, ← joinBytes_eq_append]
    exact ⟨rfl, rfl, rfl, rfl⟩
  · exact exec_load_word_of_imm16_error hi (imm16_of_low_unmapped hlo)
  · exact exec_load_word_of_imm16_error hi (imm16_of_high_unmapped hlo hhi)

end Sys2Proof.Machine
end

section
/-! PROOF. The family 42_stack_call_return.md: what a push stores and a pop reads (R150 to R152), and with them PUSH, POP,
CALL and RET (R156 to R165). -/

namespace Sys2Proof.Machine

open Sys2Proof.Safety

/-! ### Bytes of a word -/

theorem highByte_eq_extractLsb' (v : Word) : highByte v = v.extractLsb' 8 8 := by
  apply BitVec.eq_of_toNat_eq
  simp [highByte, BitVec.extractLsb'_toNat, Nat.shiftRight_eq_div_pow]

theorem lowByte_eq_extractLsb' (v : Word) : lowByte v = v.extractLsb' 0 8 := by
  apply BitVec.eq_of_toNat_eq
  simp [lowByte, BitVec.extractLsb'_toNat]

/-! ### Two stores -/

/-- Stores that follow others are stores with them, where none of them overwrites an earlier one. -/
theorem storesOnly_append {s : State} {m m' : Memory} {ps qs : List (Word × Byte)} (hps : storesOnly s m ps)
    (hqs : storesOnly (s.setMem m) m' qs) (hsep : ∀ p ∈ ps, ∀ q ∈ qs, sameByte s q.1 p.1 = false) :
    storesOnly s m' (ps ++ qs) := by
  obtain ⟨hback, hother, hcells⟩ := hps
  obtain ⟨hback', hother', hcells'⟩ := hqs
  refine ⟨fun p hp => ?_, fun x hx => ?_, fun arr off hne => ?_⟩
  · rcases List.mem_append.1 hp with hp | hp
    · exact (hother' p.1 (hsep p hp)).trans (hback p hp)
    · exact hback' p hp
  · obtain ⟨hx, hx'⟩ := List.forall_mem_append.1 hx
    exact (hother' x hx').trans (hother x hx)
  · obtain ⟨hne, hne'⟩ := List.forall_mem_append.1 hne
    exact (hcells' arr off hne').trans (hcells arr off hne)

/-- R54: neighbouring addresses are never the echo of each other. -/
theorem sameByte_add_one {s : State} {x : Word} (h : mapped s x = true) : sameByte s x (x + 1) = false := by
  rw [Bool.eq_false_iff]
  intro hsame
  obtain ⟨-, hecho⟩ := echoRamAliasesWorkingRam s x (x + 1) 0
  rcases hecho h hsame with heq | ⟨-, -, heq⟩ | ⟨-, -, heq⟩ <;> bv_omega

/-! ### Push and pop -/

/-- The address of a pushed word's high byte follows that of its low byte. -/
theorem sp_sub_two_add_one (s : State) : s.sp - 2 + 1 = s.sp - 1 := by
  bv_omega

section
variable {s : State}

/-- R150: a push stores the high byte at `sp - 1` and the low byte at `sp - 2`, and lowers `sp` by 2. -/
theorem push_of_mapped (hs : MemoryCanonical s) (hhi : mapped s (s.sp - 1) = true) (hlo : mapped s (s.sp - 2) = true)
    (v : Word) :
    ∃ m, push s v = .ok ((s.setMem m).setSp (s.sp - 2)) ∧
      storesOnly s m [(s.sp - 1, highByte v), (s.sp - 2, lowByte v)] := by
  obtain ⟨m₁, hwrite₁, hstore₁, -⟩ := (writeIsReadBackAndNothingElseChanges s (s.sp - 1) (highByte v)).1 hs hhi
  have hs₁ : MemoryCanonical (s.setMem m₁) := memWrite_keeps_wf hwrite₁ hs
  obtain ⟨m, hwrite, hstore, -⟩ :=
    (writeIsReadBackAndNothingElseChanges (s.setMem m₁) (s.sp - 2) (lowByte v)).1 hs₁ hlo
  refine ⟨m, push_eq_ok.2 ⟨_, _, hwrite₁, hwrite, rfl⟩, storesOnly_append hstore₁ hstore ?_⟩
  simpa only [List.forall_mem_singleton, sp_sub_two_add_one] using sameByte_add_one hlo

theorem push_of_first_unmapped {v : Word} (hhi : mapped s (s.sp - 1) = false) :
    push s v = .error (.addressOutOfRange (s.sp - 1)) := by
  rw [push, memWrite_of_unmapped _ hhi, error_bind]

theorem push_of_second_unmapped {v : Word} (hhi : mapped s (s.sp - 1) = true)
    (hlo : mapped s (s.sp - 2) = false) : push s v = .error (.addressOutOfRange (s.sp - 2)) := by
  obtain ⟨m, hwrite⟩ := memWrite_of_mapped (highByte v) hhi
  have hlo : mapped (s.setMem m) (s.sp - 2) = false := hlo
  rw [push, hwrite, ok_bind, memWrite_of_unmapped _ hlo, error_bind]

/-- R151: a pop reads the low byte at `sp` and the high byte at `sp + 1`, and raises `sp` by 2. -/
theorem pop_of_reads {lo hi : Byte} (hlo : memRead s s.sp = .ok lo) (hhi : memRead s (s.sp + 1) = .ok hi) :
    pop s = .ok (joinBytes hi lo, s.setSp (s.sp + 2)) :=
  pop_eq_ok.2 ⟨lo, hi, hlo, hhi, rfl, rfl⟩

theorem pop_of_low_unmapped (hlo : mapped s s.sp = false) : pop s = .error (.addressOutOfRange s.sp) := by
  rw [pop, memRead_of_unmapped hlo, error_bind]

theorem pop_of_high_unmapped (hlo : mapped s s.sp = true) (hhi : mapped s (s.sp + 1) = false) :
    pop s = .error (.addressOutOfRange (s.sp + 1)) := by
  obtain ⟨lo, hread⟩ := memRead_of_mapped hlo
  rw [pop, hread, ok_bind, memRead_of_unmapped hhi, error_bind]

end

/-- Settles O39: the pop reads the two bytes that the push stored. -/
theorem pushThenPopReturnsTheValue : Obligations.PushThenPopReturnsTheValue := by
  intro s v hs hhi hlo
  obtain ⟨m, hpush, hstored, -⟩ := push_of_mapped hs hhi hlo v
  simp only [List.forall_mem_cons, ← sp_sub_two_add_one] at hstored
  obtain ⟨hreadHi, hreadLo, -⟩ := hstored
  have hpop := pop_of_reads (s := (s.setMem m).setSp (s.sp - 2)) hreadLo hreadHi
  rw [joinBytes_high_low, State.setSp_sp, BitVec.sub_add_cancel] at hpop
  exact ⟨_, hpush, hpop⟩

/-! ### PUSH and POP -/

section
variable {i : Instr} {p : Pair} {s : State} {f : Fault}

theorem exec_eq_pushPair (hform : i.form = .push p) (s : State) : exec i s = pushPair p s := by
  rw [exec_eq_execForm, hform]
  rfl

theorem exec_push_of_push_error (hform : i.form = .push p) (h : push s (readPair s p) = .error f) :
    exec i s = .fault f := by
  rw [exec_eq_pushPair hform, pushPair, h, error_bind, commit_error]

theorem exec_eq_popPair (hform : i.form = .pop p) (s : State) : exec i s = popPair p s := by
  rw [exec_eq_execForm, hform]
  rfl

theorem exec_pop_of_pop {v : Word} {t : State} (hform : i.form = .pop p) (h : pop s = .ok (v, t)) :
    exec i s = .next ((t.setPair p v).setPc (s.pc + 1)) := by
  rw [exec_eq_popPair hform]
  exact popPair_eq_next.2 ⟨v, t, h, rfl⟩

theorem exec_pop_of_pop_error (hform : i.form = .pop p) (h : pop s = .error f) : exec i s = .fault f := by
  rw [exec_eq_popPair hform, popPair, h, error_bind, commit_error]

end

/-- Settles O37, by what the push of the pair answers. -/
theorem pushResult : Obligations.PushResult := by
  intro i p s hform
  refine ⟨fun hs hhi hlo => ?_, fun hhi => ?_, fun hhi hlo => ?_⟩
  · obtain ⟨m, hpush, hstores⟩ := push_of_mapped hs hhi hlo (readPair s p)
    rw [exec_eq_pushPair hform, ← highByte_eq_extractLsb', ← lowByte_eq_extractLsb']
    exact ⟨m, pushPair_eq_next.2 ⟨_, hpush, rfl⟩, hstores⟩
  · exact exec_push_of_push_error hform (push_of_first_unmapped hhi)
  · exact exec_push_of_push_error hform (push_of_second_unmapped hhi hlo)

/-- R158: AF takes `A` from the high byte and the four flags from bits 7 to 4 of the low byte. -/
theorem setPair_AF_joinBytes (s : State) (hi lo : Byte) :
    s.setPair .AF (joinBytes hi lo) = { s with a := hi, flags := decodeFlags lo } := by
  simp only [State.setPair, highByte_joinBytes, lowByte_joinBytes]

/-- Settles O38, by the popped word and its two bytes in the pair. -/
theorem popResult : Obligations.PopResult := by
  intro s
  refine ⟨fun lo hi hlo hhi => ?_, fun i p hform => ⟨fun hlo => ?_, fun hlo hhi => ?_⟩⟩
  · have hpop : ∀ i p, i.form = .pop p →
        exec i s = .next (((s.setSp (s.sp + 2)).setPair p (joinBytes hi lo)).setPc (s.pc + 1)) :=
      fun _ _ hform => exec_pop_of_pop hform (pop_of_reads hlo hhi)
    obtain ⟨hBC, hDE, hHL⟩ := setPair_joinBytes (s.setSp (s.sp + 2)) hi lo
    rw [hpop .pop_BC .BC rfl, hpop .pop_DE .DE rfl, hpop .pop_HL .HL rfl, hpop .pop_AF .AF rfl, hBC, hDE, hHL,
      setPair_AF_joinBytes]
    exact ⟨rfl, rfl, rfl, rfl⟩
  · exact exec_pop_of_pop_error hform (pop_of_low_unmapped hlo)
  · exact exec_pop_of_pop_error hform (pop_of_high_unmapped hlo hhi)

/-! ### CALL -/

section
variable {i : Instr} {cc : Cond} {s t : State} {f : Fault}

theorem exec_eq_callSub (hform : i.form = .call cc) (s : State) : exec i s = callSub cc s := by
  rw [exec_eq_execForm, hform]
  rfl

/-- D12: a call that is not taken makes no access. -/
theorem exec_call_not_taken (hform : i.form = .call cc) (hc : holds s.flags cc = false) :
    exec i s = .next (s.setPc (s.pc + 3)) := by
  rw [exec_eq_callSub hform]
  exact callSub_eq_next.2 (.inr ⟨hc, rfl⟩)

/-- R162: the target is read in the state that the push leaves. -/
theorem exec_call_of_target {v : Word} (hform : i.form = .call cc) (hc : holds s.flags cc = true)
    (hpush : push s (s.pc + 3) = .ok t) (hv : imm16 t = .ok v) : exec i s = .next (t.setPc v) := by
  rw [exec_eq_callSub hform]
  exact callSub_eq_next.2 (.inl ⟨hc, t, v, hpush, hv, rfl⟩)

/-- R162: the push comes first, so its error comes first. -/
theorem exec_call_of_push_error (hform : i.form = .call cc) (hc : holds s.flags cc = true)
    (hpush : push s (s.pc + 3) = .error f) : exec i s = .fault f := by
  rw [exec_eq_callSub hform, callSub, if_pos hc, hpush, error_bind, commit_error]

theorem exec_call_of_target_error (hform : i.form = .call cc) (hc : holds s.flags cc = true)
    (hpush : push s (s.pc + 3) = .ok t) (hv : imm16 t = .error f) : exec i s = .fault f := by
  rw [exec_eq_callSub hform, callSub, if_pos hc, hpush, ok_bind, hv, error_bind, commit_error]

end

/-- Settles O40: the accesses of a taken call are the two of the push, then the two of the target word in the state
the push leaves, where the same addresses are mapped. -/
theorem callResult : Obligations.CallResult := by
  intro i cc s hform
  refine ⟨exec_call_not_taken hform, fun hc hs => ⟨fun hspHi hspLo hpcLo hpcHi => ?_, fun hspHi => ?_,
    fun hspHi hspLo => ?_, fun hspHi hspLo hpcLo => ?_, fun hspHi hspLo hpcLo hpcHi => ?_⟩⟩
  · obtain ⟨m, hpush, hstores⟩ := push_of_mapped hs hspHi hspLo (s.pc + 3)
    obtain ⟨lo, hlo⟩ := memRead_of_mapped (s := (s.setMem m).setSp (s.sp - 2)) hpcLo
    obtain ⟨hi, hhi⟩ := memRead_of_mapped (s := (s.setMem m).setSp (s.sp - 2)) hpcHi
    have hcall := exec_call_of_target hform hc hpush (imm16_of_reads hlo hhi)
    rw [joinBytes_eq_append] at hcall
    rw [← highByte_eq_extractLsb', ← lowByte_eq_extractLsb']
    exact ⟨m, lo, hi, hstores, hlo, hhi, hcall⟩
  · exact exec_call_of_push_error hform hc (push_of_first_unmapped hspHi)
  · exact exec_call_of_push_error hform hc (push_of_second_unmapped hspHi hspLo)
  · obtain ⟨m, hpush, -⟩ := push_of_mapped hs hspHi hspLo (s.pc + 3)
    exact exec_call_of_target_error hform hc hpush (imm16_of_low_unmapped hpcLo)
  · obtain ⟨m, hpush, -⟩ := push_of_mapped hs hspHi hspLo (s.pc + 3)
    exact exec_call_of_target_error hform hc hpush (imm16_of_high_unmapped hpcLo hpcHi)

/-- Settles O41: with `sp = pc + 3` the stored bytes of the return address are the two bytes of the target word. -/
theorem callPushingOverItsTargetReturnsAtOnce : Obligations.CallPushingOverItsTargetReturnsAtOnce := by
  intro i cc s hform hc hs hsp hpcLo hpcHi
  have hspHi : s.sp - 1 = s.pc + 2 := by bv_omega
  have hspLo : s.sp - 2 = s.pc + 1 := by bv_omega
  obtain ⟨-, htaken⟩ := callResult i cc s hform
  obtain ⟨hresult, -⟩ := htaken hc hs
  rw [hspHi, hspLo, ← highByte_eq_extractLsb', ← lowByte_eq_extractLsb'] at hresult
  obtain ⟨m, lo, hi, ⟨hstored, -⟩, hlo, hhi, hcall⟩ := hresult hpcHi hpcLo hpcLo hpcHi
  simp only [List.forall_mem_cons] at hstored
  obtain ⟨hstoredHi, hstoredLo, -⟩ := hstored
  obtain rfl := Except.ok.inj (hlo.symm.trans hstoredLo)
  obtain rfl := Except.ok.inj (hhi.symm.trans hstoredHi)
  rw [← joinBytes_eq_append, joinBytes_high_low] at hcall
  exact ⟨_, hcall, rfl, rfl⟩

/-! ### RET -/

section
variable {i : Instr} {cc : Cond} {s t : State} {f : Fault}

theorem exec_eq_returnSub (hform : i.form = .ret cc) (s : State) : exec i s = returnSub cc s := by
  rw [exec_eq_execForm, hform]
  rfl

theorem exec_ret_not_taken (hform : i.form = .ret cc) (hc : holds s.flags cc = false) :
    exec i s = .next (s.setPc (s.pc + 1)) := by
  rw [exec_eq_returnSub hform]
  exact returnSub_eq_next.2 (.inr ⟨hc, rfl⟩)

theorem exec_ret_of_pop {v : Word} (hform : i.form = .ret cc) (hc : holds s.flags cc = true)
    (h : pop s = .ok (v, t)) : exec i s = .next (t.setPc v) := by
  rw [exec_eq_returnSub hform]
  exact returnSub_eq_next.2 (.inl ⟨hc, v, t, h, rfl⟩)

theorem exec_ret_of_pop_error (hform : i.form = .ret cc) (hc : holds s.flags cc = true) (h : pop s = .error f) :
    exec i s = .fault f := by
  rw [exec_eq_returnSub hform, returnSub, if_pos hc, h, error_bind, commit_error]

end

/-- Settles O42, by the condition and, taken, what the pop answers. -/
theorem returnResult : Obligations.ReturnResult := by
  intro i cc s hform
  refine ⟨exec_ret_not_taken hform, fun hc => ⟨fun lo hi hlo hhi => ?_, fun hlo => ?_, fun hlo hhi => ?_⟩⟩
  · rw [← joinBytes_eq_append]
    exact exec_ret_of_pop hform hc (pop_of_reads hlo hhi)
  · exact exec_ret_of_pop_error hform hc (pop_of_low_unmapped hlo)
  · exact exec_ret_of_pop_error hform hc (pop_of_high_unmapped hlo hhi)

end Sys2Proof.Machine
end

section
/-! PROOF. The family 43_jump.md: JP by its condition and, taken, its target word (R180, R181). -/

namespace Sys2Proof.Machine

open Sys2Proof.Safety

section
variable {i : Instr} {cc : Cond} {s : State}

theorem exec_eq_jump (hform : i.form = .jp cc) (s : State) : exec i s = jump cc s := by
  rw [exec_eq_execForm, hform]
  rfl

/-- R181: a jump that is not taken does not read its target word. -/
theorem exec_jump_not_taken (hform : i.form = .jp cc) (hc : holds s.flags cc = false) :
    exec i s = .next (s.setPc (s.pc + 3)) := by
  rw [exec_eq_jump hform]
  exact jump_eq_next.2 (.inr ⟨hc, rfl⟩)

theorem exec_jump_of_target {v : Word} (hform : i.form = .jp cc) (hc : holds s.flags cc = true)
    (hv : imm16 s = .ok v) : exec i s = .next (s.setPc v) := by
  rw [exec_eq_jump hform]
  exact jump_eq_next.2 (.inl ⟨hc, v, hv, rfl⟩)

theorem exec_jump_of_target_error {f : Fault} (hform : i.form = .jp cc) (hc : holds s.flags cc = true)
    (hv : imm16 s = .error f) : exec i s = .fault f := by
  rw [exec_eq_jump hform, jump, if_pos hc, hv, error_bind, commit_error]

end

/-- Settles O44, by the condition and, taken, what the read of the target word answers. -/
theorem jumpResult : Obligations.JumpResult := by
  intro i cc s hform
  refine ⟨exec_jump_not_taken hform, fun hc => ⟨fun lo hi hlo hhi => ?_, fun hlo => ?_, fun hlo hhi => ?_⟩⟩
  · rw [← joinBytes_eq_append]
    exact exec_jump_of_target hform hc (imm16_of_reads hlo hhi)
  · exact exec_jump_of_target_error hform hc (imm16_of_low_unmapped hlo)
  · exact exec_jump_of_target_error hform hc (imm16_of_high_unmapped hlo hhi)

end Sys2Proof.Machine
end

section
/-! PROOF. The family 44_prefixed.md: the nibble swap of R191 and the flags of R192, and with them SWAP of a register and
of the byte at HL (R193, R194). -/

namespace Sys2Proof.Machine

open Sys2Proof.Safety

/-! ### The nibble swap -/

theorem toNat_swapNibbles (v : Byte) : (swapNibbles v).toNat = v.toNat % 16 * 16 + v.toNat / 16 := by
  have hv := v.isLt
  simp only [swapNibbles, lowNibble, highNibble, BitVec.toNat_ofNat]
  omega

theorem swapNibbles_swapNibbles (v : Byte) : swapNibbles (swapNibbles v) = v := by
  apply BitVec.eq_of_toNat_eq
  rw [toNat_swapNibbles, toNat_swapNibbles]
  omega

/-- Zero is its own swap, and the swap is injective. -/
theorem swapNibbles_eq_zero_iff (v : Byte) : swapNibbles v = 0 ↔ v = 0 := by
  have hinj : Function.Injective swapNibbles := Function.LeftInverse.injective swapNibbles_swapNibbles
  exact hinj.eq_iff' rfl

/-- R191: the two shifted nibbles share no bit, so their sum is their union. -/
theorem swapNibbles_eq_nibblesExchanged (v : Byte) : swapNibbles v = nibblesExchanged v := by
  apply BitVec.eq_of_toNat_eq
  have hhigh : v.toNat / 16 < 2 ^ 4 := by omega
  calc (swapNibbles v).toNat
      = (v.toNat % 16) <<< 4 + v.toNat / 16 := by rw [toNat_swapNibbles, Nat.shiftLeft_eq]
    _ = (v.toNat % 16) <<< 4 ||| v.toNat / 16 := Nat.shiftLeft_add_eq_or_of_lt hhigh _
    _ = (nibblesExchanged v).toNat := by
      have hlow : (v.toNat % 16) <<< 4 = v.toNat <<< 4 % 2 ^ 8 := by omega
      rw [hlow, nibblesExchanged, BitVec.toNat_or, BitVec.toNat_shiftLeft, BitVec.toNat_ushiftRight,
        Nat.shiftRight_eq_div_pow]

/-- Settles O48. -/
theorem swapIsItsOwnInverse : Obligations.SwapIsItsOwnInverse :=
  fun v => ⟨swapNibbles_swapNibbles v, swapNibbles_eq_zero_iff v, swapNibbles_eq_nibblesExchanged v⟩

/-- R192: the two settings of SWAP_FLAGS. -/
theorem flagsAfterSwap_eq_swapFlagsOf (s : State) (res : Byte) :
    flagsAfterSwap s.params.swapFlags s.flags res = swapFlagsOf s res := by
  unfold flagsAfterSwap swapFlagsOf
  cases s.params.swapFlags <;> rfl

/-! ### SWAP -/

section
variable {i : Instr} {d : Dst8} {s : State}

theorem exec_eq_swapNibblesOf (hi : i.form = .swap d) (s : State) : exec i s = swapNibblesOf d s := by
  rw [exec_eq_execForm, hi]
  rfl

/-- R193, R194: the operand's byte is read and written back with its nibbles exchanged. -/
theorem exec_swap_of_read_write {v : Byte} {u : State} (hi : i.form = .swap d) (hv : read8 s (srcOfDst d) = .ok v)
    (hu : write8 s d (nibblesExchanged v) = .ok u) :
    exec i s = .next ((u.setFlags (swapFlagsOf s (nibblesExchanged v))).setPc (s.pc + 2)) := by
  rw [← swapNibbles_eq_nibblesExchanged] at hu ⊢
  rw [exec_eq_swapNibblesOf hi, ← flagsAfterSwap_eq_swapFlagsOf]
  exact swapNibblesOf_eq_next.2 ⟨v, u, hv, hu, rfl⟩

/-- R194: the read comes first, so its error is the instruction's. -/
theorem exec_swap_of_read_error {f : Fault} (hi : i.form = .swap d) (hv : read8 s (srcOfDst d) = .error f) :
    exec i s = .fault f := by
  rw [exec_eq_swapNibblesOf hi, swapNibblesOf, hv, error_bind, commit_error]

end

/-- Settles O46: a register is always read and always written. -/
theorem swapRegisterResult : Obligations.SwapRegisterResult :=
  fun _ _ _ hi => exec_swap_of_read_write hi rfl rfl

/-- Settles O47: an address that is read is mapped, so the write after the read succeeds too. -/
theorem swapMemoryResult : Obligations.SwapMemoryResult := by
  intro s
  refine ⟨fun v hs hv => ?_, fun hHL => ?_⟩
  · obtain ⟨m, hwrite, hstores, -⟩ :=
      (writeIsReadBackAndNothingElseChanges s (readPair s .HL) (nibblesExchanged v)).1 hs (mapped_of_memRead hv)
    exact ⟨m, exec_swap_of_read_write (d := .indHL) rfl hv hwrite, hstores⟩
  · exact exec_swap_of_read_error (d := .indHL) rfl (memRead_of_unmapped hHL)

end Sys2Proof.Machine
end

section
/-! PROOF. The family 45_control.md: NOP and HALT (R200, R201), the step of a running machine by the bytes at `pc` (R202),
and the step of a halted one (R203). -/

namespace Sys2Proof.Machine

open Sys2Proof.Safety

/-! ### The instruction the bytes at `pc` decode to -/

theorem formWellFormed_of_ne {f : Form} (h : f ≠ .ld8 .indHL .indHL) : formWellFormed f = true := by
  unfold formWellFormed
  split
  · exact absurd rfl h
  · rfl

theorem wellFormed_eq_true (i : Instr) : i.wellFormed = true :=
  formWellFormed_of_ne (form_ne_load_indHL_indHL i)

/-- R89, R202: the list decoder and the fetch look the same byte up in the same page. -/
theorem fetch_of_decode {s : State} {bs rest : List Byte} {i : Instr} (hbs : bytesAt s s.pc bs)
    (h : decode bs = .ok (i, rest)) : fetch s = .ok i := by
  rcases decode_eq_ok.1 h with ⟨b, rfl, hb, hdec⟩ | ⟨b, rfl, hdec⟩
  · obtain ⟨hread, -⟩ := hbs
    rw [fetch_plain hread hb, decodeOrRaise_some hdec]
  · obtain ⟨hescape, hread, -⟩ := hbs
    rw [fetch_prefixed hescape hread, decodeOrRaise_some hdec]

/-- Settles O10. -/
theorem stepRunsDecodedInstruction : Obligations.StepRunsDecodedInstruction :=
  fun _ _ i _ hrun hbs h => ⟨wellFormed_eq_true i, step_of_fetch hrun (fetch_of_decode hbs h)⟩

/-! ### The halted state -/

theorem step_of_halted {s : State} (h : s.halted = true) : step s = .next s :=
  step_eq_next.2 (.inl ⟨h, rfl⟩)

/-- Settles O11. -/
theorem haltedStepDoesNothing : Obligations.HaltedStepDoesNothing :=
  fun _ => step_of_halted

/-! ### NOP and HALT -/

theorem exec_nop (s : State) : exec .nop s = .next (s.setPc (s.pc + 1)) :=
  exec_eq_execForm .nop s

theorem exec_halt (s : State) : exec .halt s = .next ((s.setHalted true).setPc (s.pc + 1)) :=
  exec_eq_execForm .halt s

theorem halted_of_exec_halt {s t : State} (h : exec .halt s = .next t) : t.halted = true :=
  (execEffect_of_exec h).halted_iff.2 (.inr rfl)

/-- Settles O49: HALT leaves the machine halted, where a step does nothing. -/
theorem engineControlResult : Obligations.EngineControlResult :=
  fun s => ⟨exec_nop s, exec_halt s, fun _ h => step_of_halted (halted_of_exec_halt h)⟩

end Sys2Proof.Machine
end

section
/-! PROOF. The family 60_exceptions.md: the errors of construction (R225, R251, R252) and of a step (R220 to R224), the
order of the errors of fetch and decode (R227, D14), and what a failed step leaves (R226, R228). -/

namespace Sys2Proof.Machine

open Sys2Proof.Safety

/-! ### The errors of construction -/

theorem bootImageOk_eq_false_iff (boot : Option (List Byte)) :
    bootImageOk boot = false ↔ ∃ img, boot = some img ∧ img.length ≠ bootImageSize := by
  cases boot <;> simp [bootImageOk]

/-- R225, R254: a construction that fails found an image of the wrong size. -/
theorem construct_eq_fault {p : Params} {boot : Option (List Byte)} {cart : List Byte} {f : Fault} :
    construct p boot cart = .fault f ↔
      f = .configurationError ∧ (bootImageOk boot = false ∨ cart.length < minCartSize) := by
  unfold construct
  split
  next hok =>
    obtain ⟨hboot, hcart⟩ : bootImageOk boot = true ∧ minCartSize ≤ cart.length := by simpa using hok
    simp [hboot, Nat.not_lt.2 hcart]
  next hbad =>
    have hsize : bootImageOk boot = false ∨ cart.length < minCartSize := by
      simpa [Decidable.imp_iff_not_or] using hbad
    rw [and_iff_left hsize, Host.Outcome.fault.injEq, eq_comm]

/-- Settles O4, by the two checks of construction. -/
theorem constructRejectsWrongSizes : Obligations.ConstructRejectsWrongSizes := by
  intro p boot cart f
  rw [construct_eq_fault, bootImageOk_eq_false_iff]
  exact Iff.rfl

/-! ### The errors of a step -/

/-- R223: an access no region covers, in the terms of R55. -/
theorem addressError_of_unrouted {f : Fault} {ba : Bool} (h : ∃ x, route x ba = none ∧ f = .addressOutOfRange x) :
    ∃ x : Word, f = .addressOutOfRange x ∧ ((0xFE00 ≤ x ∧ x ≤ 0xFF7F) ∨ x = 0xFFFF) := by
  obtain ⟨x, hx, rfl⟩ := h
  exact ⟨x, rfl, route_eq_none_iff.1 hx⟩

/-- Settles O13: a fetch fails with an address or an opcode error, and an instruction with an address error only. -/
theorem stepErrorsAreAddressOrOpcode : Obligations.StepErrorsAreAddressOrOpcode := by
  intro s
  refine ⟨step_ne_refused s, fun f h => ?_⟩
  obtain ⟨-, hfetch | ⟨i, -, hexec⟩⟩ := step_eq_fault.1 h
  · exact (fetch_eq_error hfetch).imp_left addressError_of_unrouted
  · exact .inl (addressError_of_unrouted (exec_fault hexec))

/-- Settles O12: each clause is an error of the fetch, in the order in which it reads and looks up. -/
theorem fetchErrorsInOrder : Obligations.FetchErrorsInOrder := by
  intro s hrun
  refine ⟨fun hpc => ?_, fun hesc hnext => ?_, fun b hb hne hdec => ?_, fun b hesc hb hdec => ?_⟩
  · exact step_of_fetch_error hrun (fetch_error_first (memRead_of_unmapped hpc))
  · exact step_of_fetch_error hrun (fetch_error_second hesc (memRead_of_unmapped hnext))
  · exact step_unmapped_plain hrun hb hne hdec
  · exact step_unmapped_prefixed hrun hesc hb hdec

/-! ### The session after an error -/

/-- R226: a failing call records the error and keeps the machine. -/
theorem callStep_of_fault {x : Session} {f : Fault} (hx : x.stopped = none) (h : step x.machine = .fault f) :
    callStep x = ⟨x.machine, some (.error f)⟩ := by
  simp [callStep, hx, h]

/-- R228: a session that has stopped takes no further step. -/
theorem callStep_of_stopped {x : Session} {e : Stop} (h : x.stopped = some e) : callStep x = x := by
  simp [callStep, h]

/-- Settles O58: the failing call stops the session. -/
theorem failedStepLeavesTheMachine : Obligations.FailedStepLeavesTheMachine := by
  intro x f hx h
  have hcall := callStep_of_fault hx h
  have hstopped : (callStep x).stopped = some (.error f) := by rw [hcall]
  exact ⟨hcall, callStep_of_stopped hstopped⟩

end Sys2Proof.Machine
end

section
/-! PROOF. The family 70_reset_and_hazards.md: construction and the moves of the host (R250 to R255, R262 to R264), the
stack at its reset value (R258), and the run of a jump to itself (R265, R266). -/

namespace Sys2Proof.Machine

open Sys2Proof.Safety

/-! ### Construction and the moves of the host -/

/-- R251: an absent boot image counts as empty, and a present one fills the boot array. -/
theorem length_bootImage_le {boot : Option (List Byte)} (h : bootImageOk boot = true) :
    (boot.getD []).length ≤ backingSize .boot := by
  cases boot with
  | none => exact Nat.zero_le _
  | some img => exact ((bootImageOk_iff _).1 h img rfl).le

/-- R253: each image fits its array, and the arrays without an image are empty. -/
theorem imageMemory_wf {boot : Option (List Byte)} (h : bootImageOk boot = true) (cart : List Byte) :
    (imageMemory boot cart).wf = true := by
  rw [Memory.wf_iff]
  intro arr
  cases arr with
  | boot => exact cellsFrom_canonical _ _ 0 ((Nat.zero_add _).trans_le (length_bootImage_le h))
  | rom0 | romN => exact cellsFrom_canonical _ _ 0 ((Nat.zero_add _).trans_le (List.length_take_le ..))
  | _ => rfl

/-- R251, R252: a construction that succeeds found both images of accepted sizes. -/
theorem sizes_of_construct {p : Params} {boot : Option (List Byte)} {cart : List Byte} {t : State}
    (h : construct p boot cart = .next t) : bootImageOk boot = true ∧ minCartSize ≤ cart.length := by
  by_contra hsizes
  have hbad : bootImageOk boot = false ∨ cart.length < minCartSize :=
    (not_and_or.1 hsizes).imp Bool.eq_false_iff.2 Nat.lt_of_not_le
  cases h.symm.trans (construct_eq_fault.2 ⟨rfl, hbad⟩)

/-- R250: construction gives canonical memory and the parameters it was given. -/
theorem construct_canonical {p : Params} {boot : Option (List Byte)} {cart : List Byte} {t : State}
    (h : construct p boot cart = .next t) : MemoryCanonical t ∧ t.params = p := by
  obtain ⟨hboot, hcart⟩ := sizes_of_construct h
  rw [construct_eq_next p hboot hcart, Host.Outcome.next.injEq] at h
  subst h
  exact ⟨imageMemory_wf hboot cart, rfl⟩

/-- R226, R228: a step call leaves the machine as it was or takes one successful step. -/
theorem callStep_machine (x : Session) :
    (callStep x).machine = x.machine ∨ step x.machine = .next (callStep x).machine := by
  unfold callStep
  split
  · exact .inl rfl
  · split
    next h => exact .inr h
    · exact .inl rfl
    · exact .inl rfl

/-- R255: a reset that succeeds is a construction with the parameters of the machine before it. -/
theorem construct_of_callReset {x y : Session} {boot : Option (List Byte)} {cart : List Byte}
    (h : callReset x boot cart = some y) : construct x.machine.params boot cart = .next y.machine := by
  unfold callReset at h
  split at h
  next hc =>
    cases h
    exact hc
  · cases h

/-- Settles O57: a step call by what every step keeps, `disable_boot` because it writes `boot_active` alone, and a reset
because it is a construction. -/
theorem hostMovesKeepTheInvariant : Obligations.HostMovesKeepTheInvariant := by
  refine ⟨fun _ _ _ _ h => (construct_canonical h).1, fun x y m hx h => ?_⟩
  cases m with
  | step =>
    obtain rfl := Option.some.inj h
    rcases callStep_machine x with hsame | hstep
    · rw [hsame]
      exact ⟨hx, rfl⟩
    · exact ⟨stepKeepsMemoryCanonical _ _ hx hstep, (stepKeepsBootModeAndParameters _ _ hstep).2⟩
  | disableBoot =>
    obtain rfl := Option.some.inj h
    exact ⟨hx, rfl⟩
  | reset boot cart => exact construct_canonical (construct_of_callReset h)

/-! ### The stack at its reset value -/

section
variable {s : State} (hsp : s.sp = 0x0000)
include hsp

/-- R258: the first store of a push is at 0xFFFF, which is unmapped (R55). -/
theorem push_at_reset_sp (v : Word) : push s v = .error (.addressOutOfRange 0xFFFF) := by
  have haddr : s.sp - 1 = 0xFFFF := by rw [hsp]; rfl
  have hunmapped : mapped s (s.sp - 1) = false := mapped_eq_false.2 (route_eq_none_iff.2 (.inr haddr))
  rw [push_of_first_unmapped hunmapped, haddr]

/-- R258: a pop reads 0x0000 and 0x0001, which are mapped in both boot modes. -/
theorem pop_at_reset_sp : ∃ v, pop s = .ok (v, s.setSp 0x0002) := by
  have hlo : mapped s s.sp = true := by
    rw [hsp, mapped]
    cases s.bootActive <;> rfl
  have hhi : mapped s (s.sp + 1) = true := by
    rw [hsp, mapped]
    cases s.bootActive <;> rfl
  obtain ⟨lo, hlo⟩ := memRead_of_mapped hlo
  obtain ⟨hi, hhi⟩ := memRead_of_mapped hhi
  have hpop := pop_of_reads hlo hhi
  rw [hsp] at hpop
  exact ⟨_, hpop⟩

end

/-- Settles O43: a push fails at its first store, and a pop succeeds. -/
theorem stackAtResetPointer : Obligations.StackAtResetPointer := by
  intro i s hsp
  obtain ⟨v, hpop⟩ := pop_at_reset_sp hsp
  refine ⟨fun p hform => ?_, fun cc hform hc => ?_, fun p hform => ?_, fun cc hform hc => ?_⟩
  · exact exec_push_of_push_error hform (push_at_reset_sp hsp _)
  · exact exec_call_of_push_error hform hc (push_at_reset_sp hsp _)
  · exact ⟨_, exec_pop_of_pop hform hpop, State.setPair_sp ..⟩
  · exact ⟨_, exec_ret_of_pop hform hc hpop, rfl⟩

/-! ### A jump to itself -/

/-- R266: a running machine that its step does not change is in an endless run. -/
theorem runFor_of_step_self {s : State} (hrun : s.halted = false) (hstep : step s = .next s) (k : Nat) :
    runFor k s = .noEnd s := by
  induction k with
  | zero => simp [runFor, hrun]
  | succ k ih => simp [runFor, hrun, hstep, ih]

/-- R180: the jump's target word is its own address. -/
theorem step_of_jump_to_itself {s : State} (hrun : s.halted = false)
    (hbs : bytesAt s s.pc [0xC3, s.pc.extractLsb' 0 8, s.pc.extractLsb' 8 8]) : step s = .next s := by
  have hfetch : fetch s = .ok .jp_a16 := fetch_of_decode hbs (decode_append (decode_encode .jp_a16) _)
  obtain ⟨-, hlo, hhi, -⟩ := hbs
  rw [pc_add_one_add_one] at hhi
  have htarget := imm16_of_reads hlo hhi
  rw [← highByte_eq_extractLsb', ← lowByte_eq_extractLsb', joinBytes_high_low] at htarget
  rw [step_of_fetch hrun hfetch]
  exact exec_jump_of_target (cc := .always) rfl rfl htarget

/-- Settles O45. -/
theorem jumpToItselfNeverEnds : Obligations.JumpToItselfNeverEnds :=
  fun _ k hrun hbs =>
    have hstep := step_of_jump_to_itself hrun hbs
    ⟨hstep, runFor_of_step_self hrun hstep k⟩

end Sys2Proof.Machine
end
